-- ==== Sys2Proof/Word.lean ====
section
/-! DEFINITION. The words of the block (spec/00_scope.md R9 to R12): the byte, the time stamp, the signed
configuration input and the length register. The three widths that the spec's parameter table names stand here, as the
types below need them; the other parameters are in Sys2Proof/Config.lean. -/

namespace Sys2Proof

namespace Config

/-- `LEN_W`, bits of the buffer length register: the smallest width that holds `BUF_MAX` (R9, D3). -/
abbrev lenW : Nat := 10
/-- `TIME_W`, bits of `now` and of `last_byte_timestamp` (R9, D3). -/
abbrev timeW : Nat := 32
/-- `CFG_W`, bits of the signed millisecond and raw inputs of the set commands (R9, D13). -/
abbrev cfgW : Nat := 32

end Config

/-- A byte, unsigned, 0 to 255 (R11). -/
abbrev Byte := BitVec 8

/-- A time in milliseconds, `TIME_W` bits (R9, D3). -/
abbrev Time := BitVec Config.timeW

/-- A signed millisecond or raw input of a set command, `CFG_W` bits, read with `BitVec.toInt` (R9, D13). -/
abbrev CfgWord := BitVec Config.cfgW

/-- The buffer length register, `LEN_W` bits (R9, R24). -/
abbrev LenReg := BitVec Config.lenW

/-- An uninterpreted serial parameter, a byte string handed to `T.open` unchanged (R30, D24). -/
abbrev Token := List Byte

end Sys2Proof
end

