-- ==== Sys2Proof/Syntax.lean ====
section
/-! DEFINITION. The instructions of the block: one constructor per row of spec/opcode_table.json. "Instructions"
are the events the block executes (spec/00_scope.md R4): a received byte, a decoder transition, the idle timeout,
a host operation, a codec function. -/

namespace Sys2Proof

/-- The setting a configuration error names (R34, R212). -/
inductive Setting where
  | preamble | txtail | persistence | slottime | flowcontrol | diagnostics | peak
deriving DecidableEq, Repr, Inhabited

/-- The transitions of the decoder (R17, R123); the two `RX.DROP` rules are two transitions (R93). -/
inductive Transition where
  | close | openFrame | sel | fesc | unesc | plain | peak | ignore | dropFull | dropIdle
deriving DecidableEq, Repr, Inhabited

/-- The settings given to Open (R30). -/
structure SessionConfig where
  preambleMs : CfgWord
  txtailMs : CfgWord
  persistence : CfgWord
  slottimeMs : CfgWord
  flowControl : Bool
  devicePath : Token
  baudRate : Token
  byteSize : Token
  parity : Token
  stopBits : Token
deriving DecidableEq, Repr, Inhabited

/-- One constructor per row of spec/opcode_table.json, in the table's order. -/
inductive Instr where
  -- SPECIAL: the four special bytes (R72)
  | fend
  | fesc
  | tfend
  | tfesc
  -- CMD: the command selectors (R75, R142 to R154)
  | data
  | txdelay
  | p
  | slottime
  | txtail
  | fullduplex
  | sethardware
  | ready
  | audioPeak
  | enDiags
  | unknown
  | returnCmd
  | unassigned (selector : Byte)
  -- RXBYTE: the decoder's transitions (R124 to R137)
  | rxClose
  | rxOpen
  | rxSel (b : Byte)
  | rxFesc
  | rxUnesc (b : Byte)
  | rxPlain (b : Byte)
  | rxPeak (b : Byte)
  | rxIgnore (b : Byte)
  | rxDropFull (b : Byte)
  | rxDropIdle (b : Byte)
  -- TIMER (R140)
  | idleTimeout (now : Time)
  -- HOSTOP (R161 to R174)
  | setPreamble (ms : CfgWord)
  | setTxTail (ms : CfgWord)
  | setPersistence (value : CfgWord)
  | setSlotTime (ms : CfgWord)
  | setFlowControl (f : Bool)
  | enableDiagnostics
  | disableDiagnostics
  | askForPeak
  | openSession (cfg : SessionConfig)
  -- FUNC (R175, R100)
  | sendCommand (c v : Byte) (setting : Setting)
  | encodeFrame (c : Byte) (payload : List Byte)
deriving DecidableEq, Repr, Inhabited

end Sys2Proof
end

