-- ==== Sys2Proof/Config.lean ====
section
/-! DEFINITION. The parameters of spec/00_scope.md R9 with the values this hardware takes (D2, D12, D13), the wire
constants of R72 and R75, the answers the environment gives (R15), and the free values: opaque constants without a
body that stand for what the environment answers when the state scripts nothing (log 3). -/

namespace Sys2Proof

namespace Config

/-! ### Parameters (R9, D2, D12, D13) -/

/-- `BUF_MAX`, the capacity of the frame buffer in bytes. -/
def bufMax : Nat := 611
/-- `T_IDLE_MS`, the inter-byte timeout. -/
def tIdleMs : Nat := 100
/-- `T_POLL_MS`, the idle sleep before each poll. -/
def tPollMs : Nat := 80
/-- `T_SETTLE_MS`, the delay between the transport's open and the first command. -/
def tSettleMs : Nat := 2000
/-- `TICK_MS`, milliseconds per protocol tick. -/
def tickMs : Int := 10
/-- `VAL_MIN`, the floor of a value byte. -/
def valMin : Int := 0
/-- `VAL_MAX`, the ceiling of a value byte. -/
def valMax : Int := 255
/-- `POLL_ARG`, the payload of the poll. -/
def pollArg : Byte := 0x01
/-- `FLOW_ON`, `FLOW_OFF`, `DIAG_ON`, `DIAG_OFF` (R83, D12). -/
def flowOn : Byte := 0x01
def flowOff : Byte := 0x00
def diagOn : Byte := 0x01
def diagOff : Byte := 0x00

/-! ### Wire constants (R72, R75): not parameters -/

def byteFend : Byte := 0xC0
def byteFesc : Byte := 0xDB
def byteTfend : Byte := 0xDC
def byteTfesc : Byte := 0xDD

def cmdData : Byte := 0x00
def cmdTxdelay : Byte := 0x01
def cmdP : Byte := 0x02
def cmdSlottime : Byte := 0x03
def cmdTxtail : Byte := 0x04
def cmdFullduplex : Byte := 0x05
def cmdSethardware : Byte := 0x06
def cmdReady : Byte := 0x0F
def cmdAudioPeak : Byte := 0x12
def cmdEnDiags : Byte := 0x13
def cmdUnknown : Byte := 0xFE
def cmdReturn : Byte := 0xFF

/-- What a byte of the frame buffer reads as before anything is written there (log 1: DESIGN CHOICE, unsafe; the
spec: unspecified and unobservable, R24, U17). -/
def unlistedByte : Byte := 0x00

end Config

/-! ### The environment's answers (R15, R56 to R60, U14 to U16, U21) -/

/-- The last error reported (R34, R210); `MalformedFrameError` is never reported (R214). -/
inductive SesError where
  | none
  | transportOpenError
  | configurationError (setting : Setting)
  | transportIOError
deriving DecidableEq, Repr, Inhabited

/-- Who takes the next step (R5, R228, U14): the receive loop, or the caller with a call record. -/
inductive Turn where
  | loop
  | call (record : List Byte)
deriving DecidableEq, Repr, Inhabited

/-- The answer of `T.avail` and of `T.read1` (R57, R58): what they return beside `Ok` is fixed by the receive queue. -/
inductive Answer where
  | ok
  | fail
deriving DecidableEq, Repr, Inhabited

/-- The answer of `T.open` (R56): a handle, or `Fail`. -/
inductive OpenAnswer where
  | ok (handle : Nat)
  | fail
deriving DecidableEq, Repr, Inhabited

/-- The answer of `T.write` (R59): the count, or `Fail`; `sent` is how many bytes of the frame a failed write had
put on the wire, which the spec does not state (log 5). -/
inductive WriteAnswer where
  | ok (count : Nat)
  | fail (sent : Nat)
deriving DecidableEq, Repr, Inhabited

/-- How a callback ends (R199, U21); the value an error of the callee leaves in `ses.error` is not stated (log 6). -/
inductive CallbackAnswer where
  | returned
  | raised (e : SesError)
  | neverReturns
deriving DecidableEq, Repr, Inhabited

namespace Config

/-! ### Free values (log 3): what the environment does where the state scripts nothing; nothing constrains them -/

opaque freeTurn : Nat → Turn
opaque freeArrivals : Nat → List Byte
opaque freeAvail : Nat → Answer
opaque freeRead : Nat → Answer
opaque freeWrite : Nat → WriteAnswer
opaque freeOpen : Nat → OpenAnswer
opaque freeElapsed : Nat → Nat
opaque freeCallback : Nat → CallbackAnswer

end Config

end Sys2Proof
end

