-- ==== Sys2Proof/WellFormed.lean ====
section
/-! DEFINITION. Which terms of `Instr` are instructions: the checks on operands that the table's rows imply. -/

namespace Sys2Proof

/-- The selectors of the twelve named rows of R75. -/
def namedSelectors : List Byte :=
  [Config.cmdData, Config.cmdTxdelay, Config.cmdP, Config.cmdSlottime, Config.cmdTxtail, Config.cmdFullduplex,
   Config.cmdSethardware, Config.cmdReady, Config.cmdAudioPeak, Config.cmdEnDiags, Config.cmdUnknown, Config.cmdReturn]

/-- The four special bytes of R72. -/
def specialBytes : List Byte :=
  [Config.byteFend, Config.byteFesc, Config.byteTfend, Config.byteTfesc]

/-- `UNASSIGNED` takes a byte that no other SPECIAL or CMD row has (R86, R154). -/
def isUnassigned (b : Byte) : Bool :=
  !(namedSelectors.contains b) && !(specialBytes.contains b)

/-- The byte of a transition row meets the row's own condition on the byte (R123; the table's `when`). -/
def rxByteOk : Transition → Byte → Bool
  | .close, b => b == Config.byteFend
  | .openFrame, b => b == Config.byteFend
  | .fesc, b => b == Config.byteFesc
  | .unesc, b => b != Config.byteFend && b != Config.byteFesc
  | .plain, b => b != Config.byteFend && b != Config.byteFesc
  | .sel, b => b != Config.byteFend
  | .peak, b => b != Config.byteFend
  | .ignore, b => b != Config.byteFend
  | .dropFull, b => b != Config.byteFend
  | .dropIdle, b => b != Config.byteFend

namespace Instr

/-- The operand checks; every operand not named here may take every value of its type. -/
def wf : Instr → Bool
  | .unassigned b => isUnassigned b
  | .rxSel b => rxByteOk .sel b
  | .rxUnesc b => rxByteOk .unesc b
  | .rxPlain b => rxByteOk .plain b
  | .rxPeak b => rxByteOk .peak b
  | .rxIgnore b => rxByteOk .ignore b
  | .rxDropFull b => rxByteOk .dropFull b
  | .rxDropIdle b => rxByteOk .dropIdle b
  | .fend | .fesc | .tfend | .tfesc | .data | .txdelay | .p | .slottime | .txtail | .fullduplex | .sethardware
  | .ready | .audioPeak | .enDiags | .unknown | .returnCmd | .rxClose | .rxOpen | .rxFesc | .idleTimeout _
  | .setPreamble _ | .setTxTail _ | .setPersistence _ | .setSlotTime _ | .setFlowControl _ | .enableDiagnostics
  | .disableDiagnostics | .askForPeak | .openSession _ | .sendCommand _ _ _ | .encodeFrame _ _ => true

/-- The transition an RXBYTE row is, with its byte (R93); nothing for the other rows. -/
def rxRow : Instr → Option (Transition × Byte)
  | .rxClose => some (.close, Config.byteFend)
  | .rxOpen => some (.openFrame, Config.byteFend)
  | .rxSel b => some (.sel, b)
  | .rxFesc => some (.fesc, Config.byteFesc)
  | .rxUnesc b => some (.unesc, b)
  | .rxPlain b => some (.plain, b)
  | .rxPeak b => some (.peak, b)
  | .rxIgnore b => some (.ignore, b)
  | .rxDropFull b => some (.dropFull, b)
  | .rxDropIdle b => some (.dropIdle, b)
  | .fend | .fesc | .tfend | .tfesc | .data | .txdelay | .p | .slottime | .txtail | .fullduplex | .sethardware
  | .ready | .audioPeak | .enDiags | .unknown | .returnCmd | .unassigned _ | .idleTimeout _
  | .setPreamble _ | .setTxTail _ | .setPersistence _ | .setSlotTime _ | .setFlowControl _ | .enableDiagnostics
  | .disableDiagnostics | .askForPeak | .openSession _ | .sendCommand _ _ _ | .encodeFrame _ _ => none

/-- The rows that one received byte is: SPECIAL, CMD and RXBYTE (R93). -/
def isReceived : Instr → Bool
  | .fend | .fesc | .tfend | .tfesc | .data | .txdelay | .p | .slottime | .txtail | .fullduplex | .sethardware
  | .ready | .audioPeak | .enDiags | .unknown | .returnCmd | .unassigned _ | .rxClose | .rxOpen | .rxSel _ | .rxFesc
  | .rxUnesc _ | .rxPlain _ | .rxPeak _ | .rxIgnore _ | .rxDropFull _ | .rxDropIdle _ => true
  | .idleTimeout _ | .setPreamble _ | .setTxTail _ | .setPersistence _ | .setSlotTime _ | .setFlowControl _
  | .enableDiagnostics | .disableDiagnostics | .askForPeak | .openSession _ | .sendCommand _ _ _
  | .encodeFrame _ _ => false

/-- What the caller may ask of the block: the host operations and the pure call `Encode` (R4, R160 to R174).
`SendCommand` is the operations' own helper (R175), the other rows are the receive loop's (R28). -/
def isCallerOp : Instr → Bool
  | .setPreamble _ | .setTxTail _ | .setPersistence _ | .setSlotTime _ | .setFlowControl _ | .enableDiagnostics
  | .disableDiagnostics | .askForPeak | .openSession _ | .encodeFrame _ _ => true
  | .fend | .fesc | .tfend | .tfesc | .data | .txdelay | .p | .slottime | .txtail | .fullduplex | .sethardware
  | .ready | .audioPeak | .enDiags | .unknown | .returnCmd | .unassigned _ | .rxClose | .rxOpen | .rxSel _ | .rxFesc
  | .rxUnesc _ | .rxPlain _ | .rxPeak _ | .rxIgnore _ | .rxDropFull _ | .rxDropIdle _ | .idleTimeout _
  | .sendCommand _ _ _ => false

end Instr

end Sys2Proof
end

