-- ==== Sys2Proof/Decode.lean ====
section
/-! DEFINITION. From bytes to instructions and back. A received byte is decoded alone (`decodeByte`) and, together with
the decoder's registers, to the transition it fires (`selectTransition`, spec/41_decoder.md R120). A caller's call is a
record of bytes: the frame the operation transmits where the table gives a pattern (spec/30_encoding.md R76, R93),
a record of the model's own elsewhere (log 8). The encoder follows the decoder. -/

namespace Sys2Proof

/-! ### The wire format (spec/40_encoder.md) -/

/-- `esc1` of R101. -/
def esc1 (b : Byte) : List Byte :=
  if b = Config.byteFend then [Config.byteFesc, Config.byteTfend]
  else if b = Config.byteFesc then [Config.byteFesc, Config.byteTfesc]
  else [b]

/-- `escape` of R101. -/
def escape : List Byte → List Byte
  | [] => []
  | b :: rest => esc1 b ++ escape rest

/-- `Encode(c, P)` of R100: the command byte is never escaped (R102). -/
def kissEncode (c : Byte) (payload : List Byte) : List Byte :=
  [Config.byteFend] ++ [c] ++ escape payload ++ [Config.byteFend]

/-- `unesc` of R131. -/
def unesc (b : Byte) : Byte :=
  if b = Config.byteTfend then Config.byteFend
  else if b = Config.byteTfesc then Config.byteFesc
  else b

/-! ### A received byte -/

/-- The SPECIAL or CMD row a byte is, by its value alone (R72, R75, R86). -/
def decodeByte (b : Byte) : Instr :=
  if b = Config.byteFend then .fend
  else if b = Config.byteFesc then .fesc
  else if b = Config.byteTfend then .tfend
  else if b = Config.byteTfesc then .tfesc
  else if b = Config.cmdData then .data
  else if b = Config.cmdTxdelay then .txdelay
  else if b = Config.cmdP then .p
  else if b = Config.cmdSlottime then .slottime
  else if b = Config.cmdTxtail then .txtail
  else if b = Config.cmdFullduplex then .fullduplex
  else if b = Config.cmdSethardware then .sethardware
  else if b = Config.cmdReady then .ready
  else if b = Config.cmdAudioPeak then .audioPeak
  else if b = Config.cmdEnDiags then .enDiags
  else if b = Config.cmdUnknown then .unknown
  else if b = Config.cmdReturn then .returnCmd
  else .unassigned b

/-- The transition a received byte fires: the first guard of R120 that holds. The two ways to reach the last "else"
are the two `RX.DROP` rules (R136, R137). -/
def selectTransition (inFrame escapePending : Bool) (cmd : Byte) (len : LenReg) (b : Byte) : Transition :=
  if inFrame = true ∧ cmd = Config.cmdData ∧ b = Config.byteFend then .close
  else if b = Config.byteFend then .openFrame
  else if inFrame = true ∧ len.toNat < Config.bufMax then
    if len.toNat = 0 ∧ cmd = Config.cmdUnknown then .sel
    else if cmd = Config.cmdData then
      if b = Config.byteFesc then .fesc
      else if escapePending = true then .unesc
      else .plain
    else if cmd = Config.cmdAudioPeak then .peak
    else .ignore
  else if inFrame = true then .dropFull
  else .dropIdle

/-- The RXBYTE row of a transition fired by a byte (R93). -/
def Transition.toInstr : Transition → Byte → Instr
  | .close, _ => .rxClose
  | .openFrame, _ => .rxOpen
  | .sel, b => .rxSel b
  | .fesc, _ => .rxFesc
  | .unesc, b => .rxUnesc b
  | .plain, b => .rxPlain b
  | .peak, b => .rxPeak b
  | .ignore, b => .rxIgnore b
  | .dropFull, b => .rxDropFull b
  | .dropIdle, b => .rxDropIdle b

/-- The RXBYTE row that a received byte is, given the decoder's registers: byte pattern and guard (R93, R123). -/
def decodeRx (inFrame escapePending : Bool) (cmd : Byte) (len : LenReg) (b : Byte) : Instr :=
  (selectTransition inFrame escapePending cmd len b).toInstr b

/-! ### Fields of the model's own records (log 8) -/

/-- How many bytes of a record hold an operand of `width` bits. -/
def wordSize (width : Nat) : Nat := (width + 7) / 8

/-- The low `n` bytes of a number, most significant first. -/
def octets : Nat → Nat → List Byte
  | 0, _ => []
  | n + 1, v => BitVec.ofNat 8 (v / 256 ^ n) :: octets n v

/-- The bytes of an operand, at the width of its parameter, most significant first. -/
def wordBytes {width : Nat} (w : BitVec width) : List Byte := octets (wordSize width) w.toNat

/-- Reads `n` bytes off the front of a record as the digits that follow those of `high`. -/
def takeOctets : Nat → Nat → List Byte → Option (Nat × List Byte)
  | 0, high, rest => some (high, rest)
  | _ + 1, _, [] => none
  | n + 1, high, b :: rest => takeOctets n (high * 256 + b.toNat) rest

/-- Reads an operand of `width` bits off the front of a record; a number that needs more bits is none. -/
def takeWord (width : Nat) (bytes : List Byte) : Option (BitVec width × List Byte) :=
  match takeOctets (wordSize width) 0 bytes with
  | some (v, rest) => if v < 2 ^ width then some (BitVec.ofNat width v, rest) else none
  | none => none

/-- A serial parameter of any length: each byte after a 1, and a 0 at the end. -/
def putToken : Token → List Byte
  | [] => [0x00]
  | b :: rest => 0x01 :: b :: putToken rest

/-- Reads a serial parameter off the front of a record. -/
def takeToken : List Byte → Option (Token × List Byte)
  | [] => none
  | [x] => if x = 0x00 then some ([], []) else none
  | x :: b :: rest =>
    if x = 0x00 then some ([], b :: rest)
    else if x = 0x01 then
      match takeToken rest with
      | some (t, rest') => some (b :: t, rest')
      | none => none
    else none

def flagByte (f : Bool) : Byte := if f then 0x01 else 0x00

/-- Reads a one-bit operand off the front of a record. -/
def takeFlag : List Byte → Option (Bool × List Byte)
  | [] => none
  | x :: rest => if x = 0x00 then some (false, rest) else if x = 0x01 then some (true, rest) else none

def settingByte : Setting → Byte
  | .preamble => 0x00
  | .txtail => 0x01
  | .persistence => 0x02
  | .slottime => 0x03
  | .flowcontrol => 0x04
  | .diagnostics => 0x05
  | .peak => 0x06

def byteSetting (b : Byte) : Option Setting :=
  if b = 0x00 then some .preamble
  else if b = 0x01 then some .txtail
  else if b = 0x02 then some .persistence
  else if b = 0x03 then some .slottime
  else if b = 0x04 then some .flowcontrol
  else if b = 0x05 then some .diagnostics
  else if b = 0x06 then some .peak
  else none

/-- The tags of the model's own records; a record for a set command has its command code as tag. -/
def tagOpen : Byte := 0x80
def tagSendCommand : Byte := 0x81
def tagEncode : Byte := 0x82
def tagTimeout : Byte := 0x83

/-! ### Call records -/

/-- Why bytes are no instruction. -/
inductive DecodeError where
  /-- No byte at all. -/
  | emptyRecord
  /-- It begins with 0xC0 and is no single-value command frame (R76). -/
  | malformedFrame
  /-- A command frame that no host operation sends (R179, U5, U7, U8). -/
  | noHostOperation (c : Byte)
  /-- A frame of a boolean command or a poll with a value other than the operation's own (R77, R83). -/
  | reservedValue (c v : Byte)
  /-- The first byte is no tag of the model's records (log 8). -/
  | unknownTag (tag : Byte)
  /-- A record of the model's that is too short, too long or holds a field that is no value of its operand (log 8). -/
  | malformedRecord (tag : Byte)
deriving DecidableEq, Repr

/-- The millisecond operand of a value byte: that many ticks (R81). -/
def msOperand (v : Byte) : CfgWord := BitVec.ofInt Config.cfgW (Config.tickMs * v.toNat)

/-- The raw operand of a value byte (R82). -/
def rawOperand (v : Byte) : CfgWord := BitVec.ofInt Config.cfgW v.toNat

/-- The host operation whose frame carries command `c` and value `v` (R92; the HOSTOP rows). A millisecond operand
is read as the multiple of `TICK_MS` that gives `v`. -/
def decodeHostOp (c v : Byte) : Except DecodeError Instr :=
  if c = Config.cmdTxdelay then .ok (.setPreamble (msOperand v))
  else if c = Config.cmdTxtail then .ok (.setTxTail (msOperand v))
  else if c = Config.cmdP then .ok (.setPersistence (rawOperand v))
  else if c = Config.cmdSlottime then .ok (.setSlotTime (msOperand v))
  else if c = Config.cmdReady then
    if v = Config.flowOn then .ok (.setFlowControl true)
    else if v = Config.flowOff then .ok (.setFlowControl false)
    else .error (.reservedValue c v)
  else if c = Config.cmdEnDiags then
    if v = Config.diagOn then .ok .enableDiagnostics
    else if v = Config.diagOff then .ok .disableDiagnostics
    else .error (.reservedValue c v)
  else if c = Config.cmdAudioPeak then
    if v = Config.pollArg then .ok .askForPeak
    else .error (.reservedValue c v)
  else .error (.noHostOperation c)

/-- A single-value command frame after its opening delimiter and command byte (R76): `vv C0`, or the escaped
`DB DC C0` and `DB DD C0`. -/
def decodeHostFrame (c : Byte) : List Byte → Except DecodeError Instr
  | [v, e] =>
    if e = Config.byteFend ∧ v ≠ Config.byteFend ∧ v ≠ Config.byteFesc then decodeHostOp c v
    else .error .malformedFrame
  | [x, y, e] =>
    if x = Config.byteFesc ∧ e = Config.byteFend ∧ y = Config.byteTfend then decodeHostOp c Config.byteFend
    else if x = Config.byteFesc ∧ e = Config.byteFend ∧ y = Config.byteTfesc then decodeHostOp c Config.byteFesc
    else .error .malformedFrame
  | _ => .error .malformedFrame

/-- A record that is one operand of `width` bits after its tag. -/
def decodeWordRecord {width : Nat} (tag : Byte) (mk : BitVec width → Instr) (rest : List Byte) :
    Except DecodeError Instr :=
  match takeWord width rest with
  | some (w, []) => .ok (mk w)
  | _ => .error (.malformedRecord tag)

/-- The fields of a configuration record, in the order of R30. -/
def takeConfig (bytes : List Byte) : Option (SessionConfig × List Byte) := do
  let (preambleMs, r1) ← takeWord Config.cfgW bytes
  let (txtailMs, r2) ← takeWord Config.cfgW r1
  let (persistence, r3) ← takeWord Config.cfgW r2
  let (slottimeMs, r4) ← takeWord Config.cfgW r3
  let (flowControl, r5) ← takeFlag r4
  let (devicePath, r6) ← takeToken r5
  let (baudRate, r7) ← takeToken r6
  let (byteSize, r8) ← takeToken r7
  let (parity, r9) ← takeToken r8
  let (stopBits, r10) ← takeToken r9
  return ({ preambleMs, txtailMs, persistence, slottimeMs, flowControl, devicePath, baudRate, byteSize, parity,
            stopBits }, r10)

/-- The model's own records: operands that no frame determines, and the rows without a bit pattern (log 8). -/
def decodeRecord (tag : Byte) (rest : List Byte) : Except DecodeError Instr :=
  if tag = Config.cmdTxdelay then decodeWordRecord tag .setPreamble rest
  else if tag = Config.cmdTxtail then decodeWordRecord tag .setTxTail rest
  else if tag = Config.cmdP then decodeWordRecord tag .setPersistence rest
  else if tag = Config.cmdSlottime then decodeWordRecord tag .setSlotTime rest
  else if tag = tagTimeout then decodeWordRecord tag .idleTimeout rest
  else if tag = tagOpen then
    match takeConfig rest with
    | some (cfg, []) => .ok (.openSession cfg)
    | _ => .error (.malformedRecord tag)
  else if tag = tagSendCommand then
    match rest with
    | [c, v, k] =>
      match byteSetting k with
      | some setting => .ok (.sendCommand c v setting)
      | none => .error (.malformedRecord tag)
    | _ => .error (.malformedRecord tag)
  else if tag = tagEncode then
    match rest with
    | c :: payload => .ok (.encodeFrame c payload)
    | [] => .error (.malformedRecord tag)
  else .error (.unknownTag tag)

/-- The instruction that bytes are, without the decoder's registers: one byte is a received byte, a longer run is a
call record. Total; what is no instruction is rejected by name. -/
def decode : List Byte → Except DecodeError Instr
  | [] => .error .emptyRecord
  | [b] => .ok (decodeByte b)
  | b0 :: b1 :: rest =>
    if b0 = Config.byteFend then decodeHostFrame b1 rest else decodeRecord b0 (b1 :: rest)

/-! ### The encoder -/

/-- A value that no clamping changes (R81, R82): `VAL_MIN` to `VAL_MAX`. -/
def inValueRange (v : Int) : Bool := Config.valMin ≤ v && v ≤ Config.valMax

/-- A millisecond operand has the frame's encoding where the frame determines it: a whole number of ticks in range. -/
def isFrameMs (ms : CfgWord) : Bool :=
  Int.fmod ms.toInt Config.tickMs = 0 && inValueRange (Int.fdiv ms.toInt Config.tickMs)

/-- A raw operand has the frame's encoding where it is in range. -/
def isFrameRaw (value : CfgWord) : Bool := inValueRange value.toInt

/-- The bytes of a millisecond operation: its frame, or the model's record of the same command code. -/
def encodeMs (c : Byte) (ms : CfgWord) : List Byte :=
  if isFrameMs ms then kissEncode c [BitVec.ofInt 8 (Int.fdiv ms.toInt Config.tickMs)] else c :: wordBytes ms

/-- The bytes of the raw operation. -/
def encodeRaw (c : Byte) (value : CfgWord) : List Byte :=
  if isFrameRaw value then kissEncode c [BitVec.ofInt 8 value.toInt] else c :: wordBytes value

/-- The fields of a configuration record. -/
def putConfig (cfg : SessionConfig) : List Byte :=
  wordBytes cfg.preambleMs ++ (wordBytes cfg.txtailMs ++ (wordBytes cfg.persistence ++ (wordBytes cfg.slottimeMs ++
    ([flagByte cfg.flowControl] ++ (putToken cfg.devicePath ++ (putToken cfg.baudRate ++ (putToken cfg.byteSize ++
      (putToken cfg.parity ++ putToken cfg.stopBits))))))))

/-- The bytes of an instruction: the table's match for a byte row (R72, R75), the received byte for a transition row
(R93), the transmitted frame for a host operation where it determines the operand (R76), the model's record elsewhere. -/
def encode : Instr → List Byte
  | .fend => [Config.byteFend]
  | .fesc => [Config.byteFesc]
  | .tfend => [Config.byteTfend]
  | .tfesc => [Config.byteTfesc]
  | .data => [Config.cmdData]
  | .txdelay => [Config.cmdTxdelay]
  | .p => [Config.cmdP]
  | .slottime => [Config.cmdSlottime]
  | .txtail => [Config.cmdTxtail]
  | .fullduplex => [Config.cmdFullduplex]
  | .sethardware => [Config.cmdSethardware]
  | .ready => [Config.cmdReady]
  | .audioPeak => [Config.cmdAudioPeak]
  | .enDiags => [Config.cmdEnDiags]
  | .unknown => [Config.cmdUnknown]
  | .returnCmd => [Config.cmdReturn]
  | .unassigned b => [b]
  | .rxClose => [Config.byteFend]
  | .rxOpen => [Config.byteFend]
  | .rxSel b => [b]
  | .rxFesc => [Config.byteFesc]
  | .rxUnesc b => [b]
  | .rxPlain b => [b]
  | .rxPeak b => [b]
  | .rxIgnore b => [b]
  | .rxDropFull b => [b]
  | .rxDropIdle b => [b]
  | .idleTimeout now => tagTimeout :: wordBytes now
  | .setPreamble ms => encodeMs Config.cmdTxdelay ms
  | .setTxTail ms => encodeMs Config.cmdTxtail ms
  | .setPersistence value => encodeRaw Config.cmdP value
  | .setSlotTime ms => encodeMs Config.cmdSlottime ms
  | .setFlowControl f => kissEncode Config.cmdReady [if f then Config.flowOn else Config.flowOff]
  | .enableDiagnostics => kissEncode Config.cmdEnDiags [Config.diagOn]
  | .disableDiagnostics => kissEncode Config.cmdEnDiags [Config.diagOff]
  | .askForPeak => kissEncode Config.cmdAudioPeak [Config.pollArg]
  | .openSession cfg => tagOpen :: putConfig cfg
  | .sendCommand c v setting => [tagSendCommand, c, v, settingByte setting]
  | .encodeFrame c payload => tagEncode :: c :: payload

/-! ### The table's numbering -/

/-- The bytes of a word of the opcode table: a row of 8 bits is a received byte; a row of 32 bits is a frame whose
first transmitted byte is the pattern's leftmost, bits 31 to 24; the rows the reader gives 9 or 10 bits
(RX.IGNORE, RX.DROP.*) have the received byte in bits 7 to 0 and nothing of the spec above it (log 9). -/
def tableBytes (nbits w : Nat) : List Byte :=
  if nbits = 8 ∨ nbits = 16 then [BitVec.ofNat 8 w]
  else if nbits = 32 then
    [BitVec.ofNat 8 (w / 16777216), BitVec.ofNat 8 (w / 65536), BitVec.ofNat 8 (w / 256), BitVec.ofNat 8 w]
  else []

/-- The instruction of a word of the opcode table. -/
def decodeTableWord (nbits w : Nat) : Option Instr :=
  match decode (tableBytes nbits w) with
  | .ok i => some i
  | .error _ => none

end Sys2Proof
end

