-- ==== Sys2Proof/Machine/State.lean ====
section
/-! DEFINITION. The state: the decoder registers `dec.*` and the session registers `ses.*` of spec/10_state.md, the
environment the rules depend on and the block does not hold (`env`, R38), and what the block puts out (`out`). All of
it plain data. The reasons a step can stop, and the state after reset (R40). -/

namespace Sys2Proof.Machine

/-- Why the machine stops. -/
inductive Fault where
  /-- Raised by RX.CLOSE (and a received byte that fires it) when `dec.len` is over `BUF_MAX`: the buffer has no such
  address (R24, R50). Safe: no reachable state has such a length (R27). -/
  | bufferAddress
  /-- Raised by every operation that sends a frame (R175) and by the idle iteration's poll when `ses.tx_lock` is held:
  the operation waits for a lock that no agent of the model releases, a stuck state (R63). Safe: the lock is free
  between any two steps of the model. -/
  | txLockHeld
  /-- Raised by a received byte that emits a frame when the callback never returns: stuck (U21, R201). Safe. -/
  | callbackStuck
  /-- Raised by the receive loop's turn in a session whose Open failed in the configuration sequence: the sticky fault
  of R166 (D15, U1). Safe: no claim holds of such a session. -/
  | openFailedSession
deriving DecidableEq, Repr

/-- Why a step has no meaning. -/
inductive Refusal where
  /-- Raised by an arm of `exec` whose instruction has no meaning yet. Safe. -/
  | notModelled (mnemonic : String)
  /-- Raised by a configuration command or askForPeak outside READY: "the model refuses it: it has no transition and
  no effect" (R178, D19, U6). Safe. -/
  | commandNotReady
  /-- Raised by Open outside CLOSED or on a session that was opened before (R161, U6). Safe. -/
  | openNotAllowed
  /-- Raised by an RXBYTE row in a state where R120 selects another transition: that transition does not exist there.
  Safe. -/
  | transitionNotSelected (t : Transition)
  /-- Raised by a step for a call record that is an instruction but no operation the caller has (R4, R28, R179). Safe. -/
  | notACallerOperation
  /-- Raised by a step for a call record that is no instruction (log 8). Safe. -/
  | undecodable (e : DecodeError)
deriving DecidableEq, Repr

/-- The decoder registers (R20 to R25). -/
structure Dec where
  inFrame : Bool
  escapePending : Bool
  cmd : Byte
  buf : List Host.Cell
  len : LenReg
  lastByteTimestamp : Time
deriving DecidableEq, Repr

/-- The session registers (R30 to R34, R38 (b)), the mark that Open has been called (R161) and the mark of a session
whose Open failed (R166, U1). -/
structure Ses where
  config : Option SessionConfig
  online : Bool
  interfaceReady : Bool
  handle : Option Nat
  error : SesError
  txLock : Bool
  openCalled : Bool
  faulted : Bool
deriving DecidableEq, Repr

/-- The environment (R5 (c), (d); R15; R38 (a)): the transport's receive queue and the time, and, for each kind of
answer, the answers it will give, oldest first. Where a list is empty the answer is a free value of Config applied to
`draws`, which then advances (log 3). -/
structure Env where
  rxQueue : List Byte
  clock : Time
  turns : List Turn
  arrivals : List (List Byte)
  availAnswers : List Answer
  readAnswers : List Answer
  writeAnswers : List WriteAnswer
  openAnswers : List OpenAnswer
  elapsed : List Nat
  callbackAnswers : List CallbackAnswer
  draws : Nat
deriving DecidableEq, Repr

/-- A callback made (R14, D23). -/
inductive Callback where
  | onDataFrame (payload : List Byte)
  | onPeakValue (value : Int)
deriving DecidableEq, Repr

/-- What the last operation returned to its caller (R100, R165, R176). -/
inductive CallResult where
  | nothing
  | ok
  | raised (e : SesError)
  | bytes (frame : List Byte)
deriving DecidableEq, Repr

/-- What the block puts out (log 4): the arguments of every `T.open` (R56), the transmit stream, the callbacks in order,
the last call's result. -/
structure Out where
  opens : List (List Token)
  wire : List Byte
  callbacks : List Callback
  result : CallResult
deriving DecidableEq, Repr

structure State where
  dec : Dec
  ses : Ses
  env : Env
  out : Out
deriving DecidableEq, Repr

/-- The decoder registers at reset (R40). -/
def Dec.reset : Dec where
  inFrame := false
  escapePending := false
  cmd := Config.cmdUnknown
  buf := []
  len := 0
  lastByteTimestamp := 0

/-- The state of a newly constructed session, before Open (R40, R240). -/
def State.reset : State where
  dec := Dec.reset
  ses := { config := none, online := false, interfaceReady := false, handle := none, error := .none, txLock := false,
           openCalled := false, faulted := false }
  env := { rxQueue := [], clock := 0, turns := [], arrivals := [], availAnswers := [], readAnswers := [],
           writeAnswers := [], openAnswers := [], elapsed := [], callbackAnswers := [], draws := 0 }
  out := { opens := [], wire := [], callbacks := [], result := .nothing }

end Sys2Proof.Machine
end

