-- ==== Sys2Proof/Machine/Flags.lean ====
section
/-! DEFINITION. The two state machines as views of the flags, and the writes of a view (spec/10_state.md R26, R35;
spec/00_scope.md R14). The block has no arithmetic flags. -/

namespace Sys2Proof.Machine

/-- The decoder's three states (R26). -/
inductive DecFsm where
  | idle | inFrame | escaped
deriving DecidableEq, Repr

/-- The session's three states (R35). -/
inductive SesFsm where
  | closed | ready | offline
deriving DecidableEq, Repr

/-- `dec.fsm`, read off the two flags; the fourth combination is no state (R26). -/
def Dec.fsm (d : Dec) : Option DecFsm :=
  match d.inFrame, d.escapePending with
  | false, false => some .idle
  | true, false => some .inFrame
  | true, true => some .escaped
  | false, true => none

/-- `dec.fsm <- S` writes both flags (R26). -/
def Dec.setFsm (d : Dec) : DecFsm → Dec
  | .idle => { d with inFrame := false, escapePending := false }
  | .inFrame => { d with inFrame := true, escapePending := false }
  | .escaped => { d with inFrame := true, escapePending := true }

/-- `ses.fsm`, read off the two flags; the fourth combination is no state (R35). -/
def Ses.fsm (x : Ses) : Option SesFsm :=
  match x.online, x.interfaceReady with
  | false, false => some .closed
  | true, true => some .ready
  | false, true => some .offline
  | true, false => none

/-- A command may be issued "while the session is online" (R178); `ses.online` alone is tested (R32, D16). -/
def Ses.mayCommand (x : Ses) : Bool := x.online

/-- Open's precondition (R161): CLOSED, and Open has not been called before. -/
def Ses.mayOpen (x : Ses) : Bool := x.fsm == some .closed && !x.openCalled

end Sys2Proof.Machine
end

