-- ==== Sys2Proof/Machine/Operands.lean ====
section
/-! DEFINITION. The values of operands: clamping, ticks and raw values, the boolean value bytes, the signed reading of
a byte (spec/00_scope.md R12; spec/30_encoding.md R81 to R84; spec/42_session_commands.md R177). `esc1`, `escape`,
`unesc` and `kissEncode` stand in Sys2Proof/Decode.lean. -/

namespace Sys2Proof.Machine

/-- `clamp(v, lo, hi)` of R12. -/
def clamp (v lo hi : Int) : Int := if v < lo then lo else if hi < v then hi else v

/-- A clamped value as the value byte. -/
def valueByte (v : Int) : Byte := BitVec.ofInt 8 (clamp v Config.valMin Config.valMax)

/-- The rounding of `ms / TICK_MS`: floor division (R12, R81, D13, U12). -/
def roundTicks (ms : Int) : Int := Int.fdiv ms Config.tickMs

/-- `ticks(ms)` of R177. -/
def ticks (ms : Int) : Byte := valueByte (roundTicks ms)

/-- `raw(p)` of R177. -/
def raw (value : Int) : Byte := valueByte value

/-- The value byte of the flow-control command (R83, R171). -/
def flowByte (f : Bool) : Byte := if f then Config.flowOn else Config.flowOff

/-- `sext_8(b)` of R12. -/
def sext8 (b : Byte) : Int := b.toInt

end Sys2Proof.Machine
end

