-- ==== Sys2Proof/Machine/Ops.lean ====
section
/-! DEFINITION. The named operations over state: the frame buffer (spec/20_memory.md R50 to R52), the environment's
answers and time (R56 to R60, R225), the write of a frame under the lock (R63, R175), taking an error
(spec/60_exceptions.md R215 to R219), the callbacks (spec/43_receive_loop.md R194, R195). -/

namespace Sys2Proof.Machine

/-! ### Memory: a sparse list of cells in canonical form -/

/-- `Mem.wf`: addresses rise strictly, no entry equals what an unlisted address reads as, and every address is one of
the buffer's (R50). -/
abbrev Mem.wf (m : List Host.Cell) : Prop :=
  m.Pairwise (fun c c' => c.1 < c'.1) ∧ ∀ c ∈ m, c.2 ≠ Config.unlistedByte ∧ c.1 < Config.bufMax

/-- One byte of memory. -/
def Mem.read : List Host.Cell → Nat → Byte
  | [], _ => Config.unlistedByte
  | (a', v) :: m, a => if a = a' then v else Mem.read m a

/-- `MemWrite(a, 1, v)` (R13), keeping the canonical form. -/
def Mem.write : List Host.Cell → Nat → Byte → List Host.Cell
  | [], a, v => if v = Config.unlistedByte then [] else [(a, v)]
  | (a', v') :: m, a, v =>
    if a < a' then
      if v = Config.unlistedByte then (a', v') :: m else (a, v) :: (a', v') :: m
    else if a = a' then
      if v = Config.unlistedByte then m else (a, v) :: m
    else (a', v') :: Mem.write m a v

/-- `MemRead(0, n)` (R13, R51): the first `n` bytes in address order. -/
def Mem.readFirst (m : List Host.Cell) (n : Nat) : List Byte := (List.range n).map (Mem.read m)

/-! ### The frame buffer (R51) -/

/-- `append(b)`; its guard `dec.len < BUF_MAX` is part of the decoder's dispatch (R51, R120). -/
def Dec.append (d : Dec) (b : Byte) : Dec :=
  { d with buf := Mem.write d.buf d.len.toNat b, len := d.len + 1 }

/-- `clear()`: the length only; the bytes are dead (R13). -/
def Dec.clear (d : Dec) : Dec := { d with len := 0 }

/-- `MemRead(0, dec.len)`: the payload assembled so far (R51, R52). -/
def Dec.payload (d : Dec) : List Byte := Mem.readFirst d.buf d.len.toNat

/-- Every byte of `MemRead(0, dec.len)` is in the buffer (R24, R50). -/
def Dec.inRange (d : Dec) : Bool := d.len.toNat ≤ Config.bufMax

/-- The decoder registers take their reset values when the receive loop starts (R40, R165); the bytes of the buffer,
which have none, stay. -/
def Dec.restart (d : Dec) (timestamp : Time) : Dec :=
  { Dec.reset with buf := d.buf, lastByteTimestamp := timestamp }

/-! ### The environment's answers: scripted, or free (log 3) -/

/-- The next answer of a script, what remains of it, and the counter of free draws. -/
def draw {α : Type} (script : List α) (free : Nat → α) (draws : Nat) : α × List α × Nat :=
  match script with
  | a :: rest => (a, rest, draws)
  | [] => (free draws, [], draws + 1)

def State.drawTurn (s : State) : Turn × State :=
  let r := draw s.env.turns Config.freeTurn s.env.draws
  (r.1, { s with env := { s.env with turns := r.2.1, draws := r.2.2 } })

def State.drawOpen (s : State) : OpenAnswer × State :=
  let r := draw s.env.openAnswers Config.freeOpen s.env.draws
  (r.1, { s with env := { s.env with openAnswers := r.2.1, draws := r.2.2 } })

def State.drawAvail (s : State) : Answer × State :=
  let r := draw s.env.availAnswers Config.freeAvail s.env.draws
  (r.1, { s with env := { s.env with availAnswers := r.2.1, draws := r.2.2 } })

def State.drawRead (s : State) : Answer × State :=
  let r := draw s.env.readAnswers Config.freeRead s.env.draws
  (r.1, { s with env := { s.env with readAnswers := r.2.1, draws := r.2.2 } })

def State.drawWrite (s : State) : WriteAnswer × State :=
  let r := draw s.env.writeAnswers Config.freeWrite s.env.draws
  (r.1, { s with env := { s.env with writeAnswers := r.2.1, draws := r.2.2 } })

def State.drawCallback (s : State) : CallbackAnswer × State :=
  let r := draw s.env.callbackAnswers Config.freeCallback s.env.draws
  (r.1, { s with env := { s.env with callbackAnswers := r.2.1, draws := r.2.2 } })

/-- Bytes the modem has sent since the last query join the receive queue (R57). -/
def State.arrive (s : State) : State :=
  let r := draw s.env.arrivals Config.freeArrivals s.env.draws
  { s with env := { s.env with rxQueue := s.env.rxQueue ++ r.1, arrivals := r.2.1, draws := r.2.2 } }

/-- At least `atLeast` milliseconds pass: that much and an amount the environment draws (R197, R225, U15). -/
def State.pass (atLeast : Nat) (s : State) : State :=
  let r := draw s.env.elapsed Config.freeElapsed s.env.draws
  { s with env := { s.env with clock := s.env.clock + BitVec.ofNat Config.timeW (atLeast + r.1), elapsed := r.2.1,
                               draws := r.2.2 } }

/-- `now()` (R15, R225): time passes, and the clock is read. -/
def State.now (s : State) : Time × State := ((s.pass 0).env.clock, s.pass 0)

/-! ### Errors: entry, one operation for every place an error is delivered to (R215 to R219) -/

/-- Where an error is delivered. -/
inductive ErrorSite where
  /-- `T.open` failed: the caller of Open (R215). -/
  | openCall
  /-- A step of Open's configuration sequence: the caller of Open; the session is faulted (R166, R216). -/
  | openSequence
  /-- A command the caller issued: the caller (R217, R219). -/
  | callerCommand
  /-- Anything inside the receive loop: the loop boundary (R199, R218). -/
  | loop
deriving DecidableEq, Repr

/-- Taking an error. There is no handler and no return from it (R217 "immediate", R218, R221). -/
def State.takeError (site : ErrorSite) (e : SesError) (s : State) : State :=
  match site with
  | .openCall => { s with ses := { s.ses with error := e }, out := { s.out with result := .raised e } }
  | .openSequence =>
    { s with ses := { s.ses with error := e, faulted := true }, out := { s.out with result := .raised e } }
  | .callerCommand => { s with ses := { s.ses with error := e }, out := { s.out with result := .raised e } }
  | .loop => { s with ses := { s.ses with error := e, online := false } }

/-! ### Sending a frame (R59, R63, R175) -/

/-- How many bytes an answer of `T.write` says are on the wire (R59; for a failed write log 5). -/
def sentBytes : WriteAnswer → Nat
  | .ok count => count
  | .fail sent => sent

/-- `T.write(frame)`: the environment answers, and the bytes it accepted are on the wire (R59, R256). -/
def State.write (frame : List Byte) (s : State) : WriteAnswer × State :=
  let r := s.drawWrite
  (r.1, { r.2 with out := { r.2.out with wire := r.2.out.wire ++ frame.take (sentBytes r.1) } })

def State.setLock (held : Bool) (s : State) : State := { s with ses := { s.ses with txLock := held } }

/-- The error an answer of `T.write` raises: `Fail` first, then a count that is not the frame's length (R175, R220). -/
def writeError (frame : List Byte) (setting : Setting) : WriteAnswer → Option SesError
  | .fail _ => some .transportIOError
  | .ok count => if count = frame.length then none else some (.configurationError setting)

/-- `SendCommand(c, v, setting)` of R175 with the lock free: take it, write the frame, release it, test the answer.
The error, if one is raised, and the state after. -/
def sendFrame (c v : Byte) (setting : Setting) (s : State) : Option SesError × State :=
  let r := (s.setLock true).write (kissEncode c [v])
  (writeError (kissEncode c [v]) setting r.1, r.2.setLock false)

/-- The end of a command the caller issued: success, or the error to the caller (R176). -/
def finishCommand (r : Option SesError × State) : State :=
  match r with
  | (none, s) => { s with out := { s.out with result := .ok } }
  | (some e, s) => s.takeError .callerCommand e

/-- The end of the loop's poll: nothing, or the error to the loop boundary (R198, R199). -/
def finishPoll (r : Option SesError × State) : State :=
  match r with
  | (none, s) => s
  | (some e, s) => s.takeError .loop e

/-! ### Frames emitted by the decoder (R39, R194, R195) -/

/-- A frame emitted by a decoder step (R39). -/
structure Frame where
  command : Byte
  payload : List Byte
deriving DecidableEq, Repr

/-- The callback of a frame: DATA to `onDataFrame`, AUDIO_PEAK to `onPeakValue`; the decoder emits no other (R122). -/
def Frame.callback (f : Frame) : Option Callback :=
  if f.command = Config.cmdData then some (.onDataFrame f.payload)
  else if f.command = Config.cmdAudioPeak then f.payload.head?.map (fun b => .onPeakValue (sext8 b))
  else none

/-- A callback is made and recorded (D23); it returns, or raises into the loop (R199), or never returns (U21). -/
def State.makeCallback (c : Callback) (s : State) : Host.Outcome State Fault Refusal :=
  let s1 := { s with out := { s.out with callbacks := s.out.callbacks ++ [c] } }
  match s1.drawCallback with
  | (.returned, s2) => .next s2
  | (.raised e, s2) => .next (s2.takeError .loop e)
  | (.neverReturns, _) => .fault .callbackStuck

/-- Dispatch of what a decoder step emitted (R194, R195): no frame, or one. -/
def State.dispatch (out : Option Frame) (s : State) : Host.Outcome State Fault Refusal :=
  match out.bind Frame.callback with
  | none => .next s
  | some c => s.makeCallback c

end Sys2Proof.Machine
end

