-- ==== Sys2Proof/Machine/Codec.lean ====
section
/-! DEFINITION. The two functions of the opcode table: Encode (spec/40_encoder.md R100) and SendCommand
(spec/42_session_commands.md R175). -/

namespace Sys2Proof.Machine

/-- Encode(c, P): pure, total, never fails (R100, R102, R104); its result goes to whoever called it. -/
def execEncodeFrame (c : Byte) (payload : List Byte) (s : State) : Host.Outcome State Fault Refusal :=
  .next { s with out := { s.out with result := .bytes (kissEncode c payload) } }

/-- SendCommand(c, v, setting) called from the caller's side (R175, R176); it tests the lock and nothing else. -/
def execSendCommand (c v : Byte) (setting : Setting) (s : State) : Host.Outcome State Fault Refusal :=
  if s.ses.txLock = true then .fault .txLockHeld else .next (finishCommand (sendFrame c v setting s))

end Sys2Proof.Machine
end

