-- ==== Sys2Proof/Machine/Decoder.lean ====
section
/-! DEFINITION. The decoder (spec/41_decoder.md): what each transition does, the step function `DecodeStep`, and the
meanings of the byte rows (SPECIAL, CMD) and of the transition rows (RXBYTE). -/

namespace Sys2Proof.Machine

/-- The transition that R120 selects for a byte in this state of the decoder. -/
def Dec.select (d : Dec) (b : Byte) : Transition :=
  selectTransition d.inFrame d.escapePending d.cmd d.len b

/-- What a transition writes (R124 to R137; the table of R123). -/
def Dec.fire (d : Dec) (t : Transition) (b : Byte) : Dec :=
  match t with
  | .close => (d.setFsm .idle).clear
  | .openFrame => { (d.setFsm .inFrame).clear with cmd := Config.cmdUnknown }
  | .sel => { d with cmd := b }
  | .fesc => { d with escapePending := true }
  | .unesc => { d.append (unesc b) with escapePending := false }
  | .plain => d.append b
  | .peak => d
  | .ignore => d
  | .dropFull => d
  | .dropIdle => d

/-- What a transition emits (R122): the payload before the clear (R52), or the byte itself (R133). -/
def Dec.emits (d : Dec) (t : Transition) (b : Byte) : Option Frame :=
  match t with
  | .close => some { command := Config.cmdData, payload := d.payload }
  | .peak => some { command := Config.cmdAudioPeak, payload := [b] }
  | .openFrame => none
  | .sel => none
  | .fesc => none
  | .unesc => none
  | .plain => none
  | .ignore => none
  | .dropFull => none
  | .dropIdle => none

/-- `DecodeStep(b)` of R120: the registers after, and the frame emitted, if any. -/
def Dec.step (d : Dec) (b : Byte) : Dec × Option Frame :=
  (d.fire (d.select b) b, d.emits (d.select b) b)

/-- A stream of bytes through the decoder alone: the registers after, and the frames emitted, in order. -/
def Dec.feed (d : Dec) : List Byte → Dec × List Frame
  | [] => (d, [])
  | b :: rest =>
    let r := Dec.feed (d.step b).1 rest
    (r.1, (d.step b).2.toList ++ r.2)

/-- A transition with a byte, and the dispatch of what it emits: all the decoder's writes come before the callback
(R193). RX.CLOSE alone reads the buffer, and the buffer ends at `BUF_MAX` (R50). -/
def fireRx (t : Transition) (b : Byte) (s : State) : Host.Outcome State Fault Refusal :=
  if t = .close ∧ s.dec.inRange = false then .fault .bufferAddress
  else { s with dec := s.dec.fire t b }.dispatch (s.dec.emits t b)

/-- A received byte: the transition R120 selects. -/
def receiveByte (b : Byte) (s : State) : Host.Outcome State Fault Refusal :=
  fireRx (s.dec.select b) b s

/-- A transition row: the transition where R120 selects it, no transition elsewhere. -/
def selectedRx (t : Transition) (b : Byte) (s : State) : Host.Outcome State Fault Refusal :=
  if s.dec.select b = t then fireRx t b s else .refused (.transitionNotSelected t)

/-! ### SPECIAL (R72, R121): the four special bytes, received -/

/-- FEND: closes a DATA frame, opens one otherwise (R124, R125). -/
def execFend (s : State) := receiveByte Config.byteFend s
/-- FESC: begins an escape in a DATA frame (R128); an ordinary byte elsewhere (R121). -/
def execFesc (s : State) := receiveByte Config.byteFesc s
/-- TFEND: stands for 0xC0 after FESC in a DATA frame (R129, R131); an ordinary byte elsewhere (R132). -/
def execTfend (s : State) := receiveByte Config.byteTfend s
/-- TFESC: stands for 0xDB after FESC in a DATA frame (R129, R131); an ordinary byte elsewhere (R132). -/
def execTfesc (s : State) := receiveByte Config.byteTfesc s

/-! ### CMD (R75, R142 to R154): the selector values, received. In selector position each is stored by R126, and the
rule of its row says what becomes of the bytes after it; elsewhere it is a byte like any other (R123). -/

/-- DATA (R142). -/
def execData (s : State) := receiveByte Config.cmdData s
/-- TXDELAY (R143). -/
def execTxdelay (s : State) := receiveByte Config.cmdTxdelay s
/-- P (R144). -/
def execP (s : State) := receiveByte Config.cmdP s
/-- SLOTTIME (R145). -/
def execSlottime (s : State) := receiveByte Config.cmdSlottime s
/-- TXTAIL (R146). -/
def execTxtail (s : State) := receiveByte Config.cmdTxtail s
/-- FULLDUPLEX (R147). -/
def execFullduplex (s : State) := receiveByte Config.cmdFullduplex s
/-- SETHARDWARE (R148). -/
def execSethardware (s : State) := receiveByte Config.cmdSethardware s
/-- READY (R149). -/
def execReady (s : State) := receiveByte Config.cmdReady s
/-- AUDIO_PEAK (R150). -/
def execAudioPeak (s : State) := receiveByte Config.cmdAudioPeak s
/-- EN_DIAGS (R151). -/
def execEnDiags (s : State) := receiveByte Config.cmdEnDiags s
/-- UNKNOWN (R152). -/
def execUnknown (s : State) := receiveByte Config.cmdUnknown s
/-- RETURN (R153). -/
def execReturnCmd (s : State) := receiveByte Config.cmdReturn s
/-- Every value without a row of its own (R86, R154). -/
def execUnassigned (selector : Byte) (s : State) := receiveByte selector s

/-! ### RXBYTE (R124 to R137) -/

/-- RX.CLOSE (R124). -/
def execRxClose (s : State) := selectedRx .close Config.byteFend s
/-- RX.OPEN (R125). -/
def execRxOpen (s : State) := selectedRx .openFrame Config.byteFend s
/-- RX.SEL (R126). -/
def execRxSel (b : Byte) (s : State) := selectedRx .sel b s
/-- RX.FESC (R128). -/
def execRxFesc (s : State) := selectedRx .fesc Config.byteFesc s
/-- RX.UNESC (R129). -/
def execRxUnesc (b : Byte) (s : State) := selectedRx .unesc b s
/-- RX.PLAIN (R130). -/
def execRxPlain (b : Byte) (s : State) := selectedRx .plain b s
/-- RX.PEAK (R133). -/
def execRxPeak (b : Byte) (s : State) := selectedRx .peak b s
/-- RX.IGNORE (R135). -/
def execRxIgnore (b : Byte) (s : State) := selectedRx .ignore b s
/-- RX.DROP with the buffer full (R136). -/
def execRxDropFull (b : Byte) (s : State) := selectedRx .dropFull b s
/-- RX.DROP outside a frame (R137). -/
def execRxDropIdle (b : Byte) (s : State) := selectedRx .dropIdle b s

end Sys2Proof.Machine
end

