-- ==== Sys2Proof/Machine/Session.lean ====
section
/-! DEFINITION. The session commands (spec/42_session_commands.md): Open, the configuration commands, askForPeak. -/

namespace Sys2Proof.Machine

/-- A command the caller issues: refused outside READY (R178), stuck on a held lock (R63), otherwise SendCommand with
its outcome delivered to the caller (R160, R175, R176). -/
def callerCommand (c v : Byte) (setting : Setting) (s : State) : Host.Outcome State Fault Refusal :=
  if s.ses.mayCommand = false then .refused .commandNotReady
  else if s.ses.txLock = true then .fault .txLockHeld
  else .next (finishCommand (sendFrame c v setting s))

/-- setPreamble(ms) (R167). -/
def execSetPreamble (ms : CfgWord) (s : State) := callerCommand Config.cmdTxdelay (ticks ms.toInt) .preamble s
/-- setTxTail(ms) (R168). -/
def execSetTxTail (ms : CfgWord) (s : State) := callerCommand Config.cmdTxtail (ticks ms.toInt) .txtail s
/-- setPersistence(p) (R169). -/
def execSetPersistence (value : CfgWord) (s : State) := callerCommand Config.cmdP (raw value.toInt) .persistence s
/-- setSlotTime(ms) (R170). -/
def execSetSlotTime (ms : CfgWord) (s : State) := callerCommand Config.cmdSlottime (ticks ms.toInt) .slottime s
/-- setFlowControl(f) (R171). -/
def execSetFlowControl (f : Bool) (s : State) := callerCommand Config.cmdReady (flowByte f) .flowcontrol s
/-- enableDiagnostics() (R172). -/
def execEnableDiagnostics (s : State) := callerCommand Config.cmdEnDiags Config.diagOn .diagnostics s
/-- disableDiagnostics() (R173). -/
def execDisableDiagnostics (s : State) := callerCommand Config.cmdEnDiags Config.diagOff .diagnostics s
/-- askForPeak() issued by the caller (R174). -/
def execAskForPeak (s : State) := callerCommand Config.cmdAudioPeak Config.pollArg .peak s

/-! ### Open (R161 to R166) -/

/-- The configuration sequence: command, value and setting of each of the five frames, in the order of R164. -/
def openSequence (cfg : SessionConfig) : List (Byte × Byte × Setting) :=
  [(Config.cmdTxdelay, ticks cfg.preambleMs.toInt, .preamble),
   (Config.cmdTxtail, ticks cfg.txtailMs.toInt, .txtail),
   (Config.cmdP, raw cfg.persistence.toInt, .persistence),
   (Config.cmdSlottime, ticks cfg.slottimeMs.toInt, .slottime),
   (Config.cmdReady, flowByte cfg.flowControl, .flowcontrol)]

/-- The commands of a sequence, one after the other, up to the first that raises (R164, R166). -/
def sendAll : List (Byte × Byte × Setting) → State → Option SesError × State
  | [], s => (none, s)
  | (c, v, setting) :: rest, s =>
    match sendFrame c v setting s with
    | (none, s') => sendAll rest s'
    | (some e, s') => (some e, s')

/-- Step 4 of Open: both flags, the decoder at its reset values with the time at which the loop starts (R25, R165). -/
def State.startLoop (s : State) : State :=
  let t := s.now.1
  let s1 := s.now.2
  { s1 with dec := s1.dec.restart t, ses := { s1.ses with interfaceReady := true, online := true },
            out := { s1.out with result := .ok } }

/-- Open after a successful `T.open`: handle and configuration are written, the settle delay passes, the five frames
are sent, and the loop starts or the session is faulted (R161, R163 to R166). -/
def openWith (cfg : SessionConfig) (handle : Nat) (s : State) : State :=
  let s1 := { s with ses := { s.ses with handle := some handle, config := some cfg } }
  match sendAll (openSequence cfg) (s1.pass Config.tSettleMs) with
  | (none, s2) => s2.startLoop
  | (some e, s2) => s2.takeError .openSequence e

/-- The five arguments of `T.open`, unchanged (R56, R162). -/
def serialArguments (cfg : SessionConfig) : List Token :=
  [cfg.devicePath, cfg.baudRate, cfg.byteSize, cfg.parity, cfg.stopBits]

/-- The call of `T.open`: Open has been called, and the transport has been given the serial fields (R161, R162). -/
def State.callOpen (cfg : SessionConfig) (s : State) : OpenAnswer × State :=
  { s with ses := { s.ses with openCalled := true },
           out := { s.out with opens := s.out.opens ++ [serialArguments cfg] } }.drawOpen

/-- Open(config) (R161): one atomic operation; refused outside CLOSED and on a session that was opened before. -/
def execOpenSession (cfg : SessionConfig) (s : State) : Host.Outcome State Fault Refusal :=
  if s.ses.mayOpen = false then .refused .openNotAllowed
  else
    match s.callOpen cfg with
    | (.fail, s1) => .next (s1.takeError .openCall .transportOpenError)
    | (.ok handle, s1) =>
      if s1.ses.txLock = true then .fault .txLockHeld else .next (openWith cfg handle s1)

end Sys2Proof.Machine
end

