-- ==== Sys2Proof/Machine/Timer.lean ====
section
/-! DEFINITION. The idle timeout (spec/41_decoder.md R140, R141). -/

namespace Sys2Proof.Machine

/-- `(now - dec.last_byte_timestamp) mod 2^TIME_W` (R140, R225). -/
def Dec.elapsed (d : Dec) (now : Time) : Time := now - d.lastByteTimestamp

/-- The guard of R140: a buffer that is not empty and a silence strictly longer than `T_IDLE_MS` (D10). -/
def Dec.timedOut (d : Dec) (now : Time) : Bool := 0 < d.len.toNat && Config.tIdleMs < (d.elapsed now).toNat

/-- The writes of R140 where the guard holds; nothing where it does not. -/
def Dec.timeout (d : Dec) (now : Time) : Dec :=
  if d.timedOut now then { (d.setFsm .idle).clear with cmd := Config.cmdUnknown } else d

/-- IDLE.TIMEOUT(now) (R140): nothing is emitted, the timestamp stays. -/
def execIdleTimeout (now : Time) (s : State) : Host.Outcome State Fault Refusal :=
  .next { s with dec := s.dec.timeout now }

end Sys2Proof.Machine
end

