-- ==== Sys2Proof/Machine/Dispatch.lean ====
section
/-! DEFINITION. One arm per instruction: the meaning it has. -/

namespace Sys2Proof.Machine

def exec (i : Instr) (s : State) : Host.Outcome State Fault Refusal :=
  match i with
  | .fend => Sys2Proof.Machine.execFend s
  | .fesc => Sys2Proof.Machine.execFesc s
  | .tfend => Sys2Proof.Machine.execTfend s
  | .tfesc => Sys2Proof.Machine.execTfesc s
  | .data => Sys2Proof.Machine.execData s
  | .txdelay => Sys2Proof.Machine.execTxdelay s
  | .p => Sys2Proof.Machine.execP s
  | .slottime => Sys2Proof.Machine.execSlottime s
  | .txtail => Sys2Proof.Machine.execTxtail s
  | .fullduplex => Sys2Proof.Machine.execFullduplex s
  | .sethardware => Sys2Proof.Machine.execSethardware s
  | .ready => Sys2Proof.Machine.execReady s
  | .audioPeak => Sys2Proof.Machine.execAudioPeak s
  | .enDiags => Sys2Proof.Machine.execEnDiags s
  | .unknown => Sys2Proof.Machine.execUnknown s
  | .returnCmd => Sys2Proof.Machine.execReturnCmd s
  | .unassigned selector => Sys2Proof.Machine.execUnassigned selector s
  | .rxClose => Sys2Proof.Machine.execRxClose s
  | .rxOpen => Sys2Proof.Machine.execRxOpen s
  | .rxSel b => Sys2Proof.Machine.execRxSel b s
  | .rxFesc => Sys2Proof.Machine.execRxFesc s
  | .rxUnesc b => Sys2Proof.Machine.execRxUnesc b s
  | .rxPlain b => Sys2Proof.Machine.execRxPlain b s
  | .rxPeak b => Sys2Proof.Machine.execRxPeak b s
  | .rxIgnore b => Sys2Proof.Machine.execRxIgnore b s
  | .rxDropFull b => Sys2Proof.Machine.execRxDropFull b s
  | .rxDropIdle b => Sys2Proof.Machine.execRxDropIdle b s
  | .idleTimeout now => Sys2Proof.Machine.execIdleTimeout now s
  | .setPreamble ms => Sys2Proof.Machine.execSetPreamble ms s
  | .setTxTail ms => Sys2Proof.Machine.execSetTxTail ms s
  | .setPersistence value => Sys2Proof.Machine.execSetPersistence value s
  | .setSlotTime ms => Sys2Proof.Machine.execSetSlotTime ms s
  | .setFlowControl f => Sys2Proof.Machine.execSetFlowControl f s
  | .enableDiagnostics => Sys2Proof.Machine.execEnableDiagnostics s
  | .disableDiagnostics => Sys2Proof.Machine.execDisableDiagnostics s
  | .askForPeak => Sys2Proof.Machine.execAskForPeak s
  | .openSession cfg => Sys2Proof.Machine.execOpenSession cfg s
  | .sendCommand c v setting => Sys2Proof.Machine.execSendCommand c v setting s
  | .encodeFrame c payload => Sys2Proof.Machine.execEncodeFrame c payload s

end Sys2Proof.Machine
end

