-- ==== Sys2Proof/Machine/Loop.lean ====
section
/-! DEFINITION. Who moves next and what a turn is: the receive loop's iterations (spec/43_receive_loop.md R190 to R199),
the caller's calls (spec/60_exceptions.md R228), the inert turn of a session that is not online (R205, R241). Step.lean
only calls what stands here. -/

namespace Sys2Proof.Machine

/-- The registers and the queue after the fetch of one byte: the byte has left the queue and the timestamp is `now()`
(R192), the decoder not yet stepped. -/
def State.fetched (rest : List Byte) (s : State) : State :=
  let r := { s with env := { s.env with rxQueue := rest } }.now
  { r.2 with dec := { r.2.dec with lastByteTimestamp := r.1 } }

/-- A receive iteration whose oldest byte is `b` (R192 to R195): `Fail` ends the session with timestamp, queue and
decoder untouched; otherwise the instruction the byte is runs. -/
def receiveIteration (b : Byte) (rest : List Byte) (s : State) : Host.Outcome State Fault Refusal :=
  match s.drawRead with
  | (.fail, s1) => .next (s1.takeError .loop .transportIOError)
  | (.ok, s1) => exec (decodeByte b) (s1.fetched rest)

/-- Steps 2 and 3 of an idle iteration (R197, R198): wait, then poll under the lock; an error goes to the loop boundary. -/
def idlePoll (s : State) : Host.Outcome State Fault Refusal :=
  if s.ses.txLock = true then .fault .txLockHeld
  else .next (finishPoll (sendFrame Config.cmdAudioPeak Config.pollArg .peak (s.pass Config.tPollMs)))

/-- An idle iteration (R196 to R198): the timeout check with `now()`, then the wait and the poll. -/
def idleIteration (s : State) : Host.Outcome State Fault Refusal :=
  match exec (.idleTimeout s.now.1) s.now.2 with
  | .next s1 => idlePoll s1
  | .fault r => .fault r
  | .refused r => .refused r

/-- One iteration of the loop (R190, R191): `T.avail` first; a receive iteration if the queue holds a byte, an idle
iteration if it holds none. -/
def loopIteration (s : State) : Host.Outcome State Fault Refusal :=
  match s.arrive.drawAvail with
  | (.fail, s1) => .next (s1.takeError .loop .transportIOError)
  | (.ok, s1) =>
    match s1.env.rxQueue with
    | b :: rest => receiveIteration b rest s1
    | [] => idleIteration s1

/-- The loop's turn: an iteration while online (R190); nothing in CLOSED (R241) and OFFLINE (R205); the sticky fault in
a session whose Open failed (R166, U1). -/
def loopTurn (s : State) : Host.Outcome State Fault Refusal :=
  if s.ses.online = true then loopIteration s
  else if s.ses.faulted = true then .fault .openFailedSession
  else .next s

/-- The caller's turn: its call record is decoded and run; what is no operation of the caller's is refused by name. -/
def callTurn (record : List Byte) (s : State) : Host.Outcome State Fault Refusal :=
  match decode record with
  | .error e => .refused (.undecodable e)
  | .ok i => if i.isCallerOp = true then exec i s else .refused .notACallerOperation

/-- A turn of whoever moves next (R228, U14). -/
def takeTurn (s : State) : Host.Outcome State Fault Refusal :=
  match s.drawTurn with
  | (.loop, s1) => loopTurn s1
  | (.call record, s1) => callTurn record s1

/-! ### Placing an instruction where the next step fetches it (log 9) -/

/-- A session that Open has started: what the receive loop and the caller's commands need (R178, R190). -/
def State.online (s : State) : State :=
  { s with ses := { s.ses with online := true, interfaceReady := true, openCalled := true, faulted := false,
                               handle := s.ses.handle.or (some 0), config := s.ses.config.or (some default) } }

/-- A byte at the front of the receive queue of an online session whose loop moves next, with the answers its fetch
asks for: no more arrivals, `T.avail` and `T.read1` Ok, no time passing. -/
def State.placeByte (b : Byte) (s : State) : State :=
  let s1 := s.online
  { s1 with env := { s1.env with
      rxQueue := b :: s1.env.rxQueue
      turns := .loop :: s1.env.turns
      arrivals := [] :: s1.env.arrivals
      availAnswers := .ok :: s1.env.availAnswers
      readAnswers := .ok :: s1.env.readAnswers
      elapsed := 0 :: s1.env.elapsed } }

/-- A call record of an online session's caller, who moves next. -/
def State.placeCall (record : List Byte) (s : State) : State :=
  let s1 := s.online
  { s1 with env := { s1.env with turns := .call record :: s1.env.turns } }

/-- One byte is a received byte, more are a call. -/
def State.place (bytes : List Byte) (s : State) : State :=
  match bytes with
  | [b] => s.placeByte b
  | _ => s.placeCall bytes

end Sys2Proof.Machine
end

