-- ==== Sys2Proof/Machine/Step.lean ====
section
/-! DEFINITION. One step of the machine, and the state in which the next step runs a given word of the opcode table. -/

namespace Sys2Proof.Machine

/-- One step: a turn of the receive loop or of the caller (spec/00_scope.md R4, spec/60_exceptions.md R228). -/
def step (s : State) : Host.Outcome State Fault Refusal := takeTurn s

/-- `s` with a word of the opcode table placed where the next step fetches its instruction (log 9). -/
def State.withFetchWord (s : State) (nbits w : Nat) : State := s.place (tableBytes nbits w)

end Sys2Proof.Machine
end

