-- ==== Sys2Proof/Safety.lean ====
section
/-! DEFINITION. What a safe state and a safe step are, in the terms the statements use: the invariants of
spec/10_state.md R27 and R35, the parts of the state that an operation leaves alone, the frames a session may send. -/

namespace Sys2Proof.Machine

/-- The invariants of the decoder (R27 items 1 to 4), and the canonical form of the buffer's memory. -/
structure Dec.Inv (d : Dec) : Prop where
  memory : Mem.wf d.buf
  lenBound : d.len.toNat ≤ Config.bufMax
  escape : d.escapePending = true → d.inFrame = true ∧ d.cmd = Config.cmdData ∧ d.len.toNat < Config.bufMax
  nonempty : 0 < d.len.toNat → d.inFrame = true ∧ d.cmd = Config.cmdData
  idle : d.inFrame = false → d.len.toNat = 0 ∧ d.escapePending = false

/-- The invariants of the session registers: the lock is free between steps (R63), `online` without `interface_ready`
does not occur (R35), a session that has been READY was opened and has handle and configuration (R30, R33, R165), a
faulted session was opened, is CLOSED and has its error recorded (R166, R216). -/
structure Ses.Inv (x : Ses) : Prop where
  lockFree : x.txLock = false
  readyWhenOnline : x.online = true → x.interfaceReady = true
  openedWhenReady : x.interfaceReady = true →
    x.openCalled = true ∧ x.handle.isSome = true ∧ x.config.isSome = true ∧ x.faulted = false
  faultedClosed : x.faulted = true → x.openCalled = true ∧ x.interfaceReady = false ∧ x.error ≠ .none

/-- The invariant of the machine. -/
structure State.Inv (s : State) : Prop where
  dec : s.dec.Inv
  ses : s.ses.Inv

/-- The state after an outcome is a next state with a property; a fault or a refusal has none. -/
def NextHas (o : Host.Outcome State Fault Refusal) (P : State → Prop) : Prop :=
  match o with
  | .next s => P s
  | .fault _ => False
  | .refused _ => False

/-- Whatever next state an outcome is, it has a property. -/
def WheneverNext (o : Host.Outcome State Fault Refusal) (P : State → Prop) : Prop :=
  ∀ s, o = .next s → P s

/-- The commands a session operation sends (R75 column "sent by", R179). -/
def sessionCommands : List Byte :=
  [Config.cmdTxdelay, Config.cmdP, Config.cmdSlottime, Config.cmdTxtail, Config.cmdReady, Config.cmdAudioPeak,
   Config.cmdEnDiags]

/-- The bytes of a list of single-value command frames, one frame after the other (R63, R76). -/
def frameBytes (frames : List (Byte × Byte)) : List Byte :=
  frames.flatMap (fun f => kissEncode f.1 [f.2])

/-- `i` transmits the frame of command `c` and value `v` (R175) in every state that meets `pre` and has the lock free,
whatever the transport answers: all bytes accepted, another count, or `Fail`. Everything not named stays as it was. -/
def SendsFrame (i : Instr) (c v : Byte) (setting : Setting) (pre : State → Prop) : Prop :=
  ∀ (s : State) (rest : List WriteAnswer), pre s → s.ses.txLock = false →
    (s.env.writeAnswers = .ok (kissEncode c [v]).length :: rest →
      exec i s = .next { s with
        env := { s.env with writeAnswers := rest }
        out := { s.out with wire := s.out.wire ++ kissEncode c [v], result := .ok } }) ∧
    (∀ count, count ≠ (kissEncode c [v]).length → s.env.writeAnswers = .ok count :: rest →
      exec i s = .next { s with
        ses := { s.ses with error := .configurationError setting }
        env := { s.env with writeAnswers := rest }
        out := { s.out with wire := s.out.wire ++ (kissEncode c [v]).take count,
                            result := .raised (.configurationError setting) } }) ∧
    (∀ sent, s.env.writeAnswers = .fail sent :: rest →
      exec i s = .next { s with
        ses := { s.ses with error := .transportIOError }
        env := { s.env with writeAnswers := rest }
        out := { s.out with wire := s.out.wire ++ (kissEncode c [v]).take sent,
                            result := .raised .transportIOError } })

/-- The answers of `T.write` under which every frame of a sequence is accepted whole. -/
def acceptAll (l : List (Byte × Byte × Setting)) : List WriteAnswer :=
  l.map fun x => .ok (kissEncode x.1 [x.2.1]).length

end Sys2Proof.Machine
end

