-- ==== Sys2Proof/Certificates/Slice0/Obligations.lean ====
section
/-! DEFINITION. The statements for the provers. Wire constants are written as the spec's table gives them (0xC0 and so
on), parameters by their names in Config. A statement whose rule the spec marks as its own decision or derivation says
so; none rests on a free value (log 3). -/

open Sys2Proof Sys2Proof.Machine

/-! ### Reset and the invariant -/

/-- Reset (10_state section 7, R40): every register the spec gives a value has it. The values of `dec.buf`,
`dec.last_byte_timestamp`, `ses.config` and the environment at reset are the model's (logs 1 to 3 and 11) and are not
stated. -/
def Obligations.ResetGivesTheRegisterValues : Prop :=
  State.reset.dec.inFrame = false ∧ State.reset.dec.escapePending = false ∧ State.reset.dec.cmd = 0xFE ∧
  State.reset.dec.len.toNat = 0 ∧ State.reset.dec.fsm = some .idle ∧
  State.reset.ses.online = false ∧ State.reset.ses.interfaceReady = false ∧ State.reset.ses.handle = none ∧
  State.reset.ses.error = .none ∧ State.reset.ses.txLock = false ∧
  State.reset.ses.fsm = some .closed

/-- The invariant of the machine holds at reset (R27 "They hold at reset"). -/
def Obligations.InvariantHoldsAtReset : Prop := State.reset.Inv

/-- Every step keeps the invariant: R27 items 1 to 4 and the canonical form of the buffer's memory (Dec.Inv), the free
lock, no `online` without `interface_ready` (R31, R32; D16, the spec's decision), what a READY and a faulted session hold
(Ses.Inv). -/
def Obligations.StepKeepsTheInvariant : Prop :=
  ∀ s t : State, s.Inv → step s = .next t → t.Inv

/-! ### The decoder's step function -/

/-- R120: the transition is the first guard that holds, with the writes and the emission of its rule. Those of RX.CLOSE
(D4, D7, D9), RX.OPEN on an open frame (D31), RX.SEL (D6), RX.PEAK (D8), RX.DROP (D9) are the spec's own decisions, that
of RX.PLAIN its derivation; log 12 says that the model follows them. -/
def Obligations.DecodeStepFollowsThePriorityOrder : Prop :=
  ∀ (d : Dec) (b : Byte), d.step b =
    if d.inFrame = true ∧ d.cmd = 0x00 ∧ b = 0xC0 then
      ({ d with inFrame := false, escapePending := false, len := 0 }, some ⟨0x00, d.payload⟩)
    else if b = 0xC0 then
      ({ d with inFrame := true, escapePending := false, cmd := 0xFE, len := 0 }, none)
    else if d.inFrame = true ∧ d.len.toNat < Config.bufMax then
      if d.len.toNat = 0 ∧ d.cmd = 0xFE then ({ d with cmd := b }, none)
      else if d.cmd = 0x00 then
        if b = 0xDB then ({ d with escapePending := true }, none)
        else if d.escapePending = true then
          ({ d with buf := Mem.write d.buf d.len.toNat (if b = 0xDC then 0xC0 else if b = 0xDD then 0xDB else b),
                    len := d.len + 1, escapePending := false }, none)
        else ({ d with buf := Mem.write d.buf d.len.toNat b, len := d.len + 1 }, none)
      else if d.cmd = 0x12 then (d, some ⟨0x12, [b]⟩)
      else (d, none)
    else (d, none)

/-- Every received byte, by whichever SPECIAL or CMD row it is, runs exactly the RXBYTE row that R120 selects. -/
def Obligations.ReceivedByteRunsTheSelectedRow : Prop :=
  ∀ (b : Byte) (s : State), exec (decodeByte b) s = exec ((s.dec.select b).toInstr b) s

/-- An RXBYTE row has no transition in a state where R120 selects another one for its byte ("exactly one of the transitions
fires"). That such a row, run as an instruction, is the refusal `transitionNotSelected` is the model's own rendering
(log 15, DEDUCED). -/
def Obligations.UnselectedRowIsRefused : Prop :=
  ∀ (t : Transition) (b : Byte) (s : State), rxByteOk t b = true → s.dec.select b ≠ t →
    exec (t.toInstr b) s = .refused (.transitionNotSelected t)

/-! ### The transitions, each completing with its rule's writes and nothing else -/

/-- R124 (with the spec's own decisions D4, D7, D9): closing a DATA frame emits its payload and leaves IDLE with the
command unchanged; the callback is `onDataFrame` (R194). Both the transition row and the byte 0xC0 do it. -/
def Obligations.CloseDeliversThePayload : Prop :=
  ∀ (s : State) (rest : List CallbackAnswer), s.dec.inFrame = true → s.dec.cmd = 0x00 →
    s.dec.len.toNat ≤ Config.bufMax → s.env.callbackAnswers = .returned :: rest →
    let t : State := { s with
      dec := { s.dec with inFrame := false, escapePending := false, len := 0 }
      env := { s.env with callbackAnswers := rest }
      out := { s.out with callbacks := s.out.callbacks ++ [.onDataFrame s.dec.payload] } }
    exec .rxClose s = .next t ∧ exec .fend s = .next t

/-- R125: a delimiter that does not close a DATA frame (re)starts a frame; nothing is emitted. -/
def Obligations.OpenRestartsTheFrame : Prop :=
  ∀ s : State, ¬(s.dec.inFrame = true ∧ s.dec.cmd = 0x00) →
    let t : State := { s with dec := { s.dec with inFrame := true, escapePending := false, cmd := 0xFE, len := 0 } }
    exec .rxOpen s = .next t ∧ exec .fend s = .next t

/-- R126 (D6): the byte in selector position becomes the command, whatever its value but 0xC0; nothing else changes.
The rows of the wire table and the two escape bytes among them. -/
def Obligations.SelectorByteBecomesTheCommand : Prop :=
  ∀ s : State, s.dec.inFrame = true → s.dec.len.toNat = 0 → s.dec.cmd = 0xFE →
    let stored (v : Byte) : Host.Outcome State Fault Refusal := .next { s with dec := { s.dec with cmd := v } }
    (∀ b : Byte, b ≠ 0xC0 → exec (.rxSel b) s = stored b) ∧
    exec .data s = stored 0x00 ∧ exec .txdelay s = stored 0x01 ∧ exec .p s = stored 0x02 ∧
    exec .slottime s = stored 0x03 ∧ exec .txtail s = stored 0x04 ∧ exec .fullduplex s = stored 0x05 ∧
    exec .sethardware s = stored 0x06 ∧ exec .ready s = stored 0x0F ∧ exec .audioPeak s = stored 0x12 ∧
    exec .enDiags s = stored 0x13 ∧ exec .unknown s = stored 0xFE ∧ exec .returnCmd s = stored 0xFF ∧
    exec .fesc s = stored 0xDB ∧ exec .tfend s = stored 0xDC ∧ exec .tfesc s = stored 0xDD ∧
    (∀ b : Byte, isUnassigned b = true → exec (.unassigned b) s = stored b)

/-- R128: in a DATA frame with room the escape byte is consumed and leaves ESCAPED, also from ESCAPED. -/
def Obligations.EscapeByteBeginsAnEscape : Prop :=
  ∀ s : State, s.dec.inFrame = true → s.dec.len.toNat < Config.bufMax → s.dec.cmd = 0x00 →
    let t : State := { s with dec := { s.dec with escapePending := true } }
    exec .rxFesc s = .next t ∧ exec .fesc s = .next t

/-- R129: in ESCAPED with room a byte other than 0xC0 and 0xDB is translated, appended, and ends the escape; TFEND
appends 0xC0, TFESC 0xDB, any other byte itself. -/
def Obligations.EscapedByteIsTranslatedAndAppended : Prop :=
  ∀ (s : State) (b : Byte), b ≠ 0xC0 → b ≠ 0xDB → s.dec.inFrame = true → s.dec.len.toNat < Config.bufMax →
    s.dec.cmd = 0x00 → s.dec.escapePending = true →
    let t (v : Byte) : State := { s with
      dec := { s.dec with buf := Mem.write s.dec.buf s.dec.len.toNat v, len := s.dec.len + 1, escapePending := false } }
    exec (.rxUnesc b) s = .next (t (if b = 0xDC then 0xC0 else if b = 0xDD then 0xDB else b)) ∧
    exec .tfend s = .next (t 0xC0) ∧ exec .tfesc s = .next (t 0xDB) ∧
    (b ≠ 0xDC → b ≠ 0xDD → exec (decodeByte b) s = .next (t b))

/-- R130 and R132 (the spec's derivations): in a DATA frame with room and no escape pending a byte other than 0xC0 and
0xDB is appended as it is, TFEND and TFESC among them. -/
def Obligations.PlainByteIsAppended : Prop :=
  ∀ (s : State) (b : Byte), b ≠ 0xC0 → b ≠ 0xDB → s.dec.inFrame = true → s.dec.len.toNat < Config.bufMax →
    s.dec.cmd = 0x00 → s.dec.escapePending = false →
    let t (v : Byte) : State := { s with
      dec := { s.dec with buf := Mem.write s.dec.buf s.dec.len.toNat v, len := s.dec.len + 1 } }
    exec (.rxPlain b) s = .next (t b) ∧ exec (decodeByte b) s = .next (t b) ∧
    exec .tfend s = .next (t 0xDC) ∧ exec .tfesc s = .next (t 0xDD)

/-- R133 (D8) and R195: in an AUDIO_PEAK frame every byte but 0xC0 calls `onPeakValue` with its signed reading; no
register changes. -/
def Obligations.PeakByteIsReported : Prop :=
  ∀ (s : State) (b : Byte) (rest : List CallbackAnswer), b ≠ 0xC0 → s.dec.inFrame = true →
    s.dec.len.toNat < Config.bufMax → s.dec.cmd = 0x12 → s.env.callbackAnswers = .returned :: rest →
    let t : State := { s with
      env := { s.env with callbackAnswers := rest }
      out := { s.out with callbacks := s.out.callbacks ++
        [.onPeakValue (if b.toNat < 128 then (b.toNat : Int) else (b.toNat : Int) - 256)] } }
    exec (.rxPeak b) s = .next t ∧ exec (decodeByte b) s = .next t

/-- R135: in a frame of any other command a byte other than 0xC0 changes nothing. -/
def Obligations.OtherCommandsIgnoreTheirBytes : Prop :=
  ∀ (s : State) (b : Byte), b ≠ 0xC0 → s.dec.inFrame = true → s.dec.len.toNat < Config.bufMax →
    ¬(s.dec.len.toNat = 0 ∧ s.dec.cmd = 0xFE) → s.dec.cmd ≠ 0x00 → s.dec.cmd ≠ 0x12 →
    exec (.rxIgnore b) s = .next s ∧ exec (decodeByte b) s = .next s

/-- R136 (D9) and R137 (derived): a byte other than 0xC0 is dropped with the buffer full, 0xDB among them, and outside a
frame. -/
def Obligations.ByteIsDroppedWhenFullOrOutside : Prop :=
  ∀ (s : State) (b : Byte), b ≠ 0xC0 →
    (s.dec.inFrame = true → s.dec.len.toNat = Config.bufMax →
      exec (.rxDropFull b) s = .next s ∧ exec (decodeByte b) s = .next s) ∧
    (s.dec.inFrame = false → exec (.rxDropIdle b) s = .next s ∧ exec (decodeByte b) s = .next s)

/-! ### Laws of the decoder -/

/-- R138 items 1 and 2 (derived): a delimiter leaves an empty buffer and no escape; the length grows, by one, only while
the command is DATA. -/
def Obligations.DelimiterEmptiesAndOnlyDataGrows : Prop :=
  ∀ (d : Dec) (b : Byte), (b = 0xC0 → (d.step b).1.len.toNat = 0 ∧ (d.step b).1.escapePending = false) ∧
    (d.len.toNat < (d.step b).1.len.toNat → d.cmd = 0x00 ∧ (d.step b).1.len.toNat = d.len.toNat + 1)

/-- R138 items 3 to 5 and R122 (derived, over D8 and D9): what a step emits is nothing, a DATA frame of at most
`BUF_MAX` bytes on a delimiter, or a one-byte AUDIO_PEAK frame on another byte. -/
def Obligations.EmittedFramesAreBounded : Prop :=
  ∀ (d : Dec) (b : Byte) (f : Frame), d.Inv → (d.step b).2 = some f →
    (f.command = 0x00 ∧ b = 0xC0 ∧ f.payload.length ≤ Config.bufMax) ∨
    (f.command = 0x12 ∧ b ≠ 0xC0 ∧ f.payload = [b])

/-- R107 (derived): the encoding of a DATA frame of at most `BUF_MAX` bytes, fed to a decoder that is not inside a DATA
frame, emits that frame at its last byte, nothing before, and leaves IDLE; fed to a decoder inside a DATA frame, it
closes that one and the new frame is lost. -/
def Obligations.DataFrameRoundTrip : Prop :=
  ∀ (d : Dec) (payload : List Byte), Mem.wf d.buf → payload.length ≤ Config.bufMax →
    (¬(d.inFrame = true ∧ d.cmd = 0x00) →
      (d.feed ([0xC0, 0x00] ++ escape payload)).2 = [] ∧
      (d.feed (kissEncode 0x00 payload)).2 = [⟨0x00, payload⟩] ∧
      (d.feed (kissEncode 0x00 payload)).1.fsm = some .idle ∧
      (d.feed (kissEncode 0x00 payload)).1.len.toNat = 0) ∧
    (d.inFrame = true ∧ d.cmd = 0x00 →
      (d.feed (kissEncode 0x00 payload)).2 = [⟨0x00, d.payload⟩] ∧
      (d.feed (kissEncode 0x00 payload)).1.fsm = some .inFrame ∧
      (d.feed (kissEncode 0x00 payload)).1.cmd = 0xFE)

/-- R91 (with R136, R124; D9, the spec's own decision, log 12): the encoding of a DATA frame of `BUF_MAX` bytes or more,
reserved bytes among them or not, is delivered truncated to the first `BUF_MAX` bytes of its payload. An escape completes
into the last slot; with the buffer full an escaped pair is two dropped bytes. -/
def Obligations.OversizeFrameIsTruncated : Prop :=
  ∀ (d : Dec) (payload : List Byte), Mem.wf d.buf → Config.bufMax ≤ payload.length →
    ¬(d.inFrame = true ∧ d.cmd = 0x00) →
    (d.feed (kissEncode 0x00 payload)).2 = [⟨0x00, payload.take Config.bufMax⟩] ∧
    (d.feed (kissEncode 0x00 payload)).1.fsm = some .idle ∧
    ((∀ b ∈ payload, b ≠ 0xC0 ∧ b ≠ 0xDB) → kissEncode 0x00 payload = [0xC0, 0x00] ++ payload ++ [0xC0])

/-- R108 (derived, over D8): the encoding of a frame of another command emits nothing, and that of an AUDIO_PEAK frame
one frame per byte of the escaped payload, without unescaping. -/
def Obligations.OtherFramesDoNotRoundTrip : Prop :=
  ∀ (d : Dec) (c : Byte) (payload : List Byte), ¬(d.inFrame = true ∧ d.cmd = 0x00) →
    (c ≠ 0xC0 → c ≠ 0xFE → c ≠ 0x00 → c ≠ 0x12 → (d.feed (kissEncode c payload)).2 = []) ∧
    (d.feed (kissEncode 0x12 payload)).2 = (escape payload).map (fun b => ⟨0x12, [b]⟩)

/-- R152 (derived): after an opening delimiter a run of 0xFE bytes is transparent. -/
def Obligations.UnknownSelectorIsTransparent : Prop :=
  ∀ (d : Dec) (n : Nat) (stream : List Byte), ¬(d.inFrame = true ∧ d.cmd = 0x00) →
    d.feed ([0xC0] ++ List.replicate n 0xFE ++ stream) = d.feed ([0xC0] ++ stream)

/-- R251 (derived): after a DATA frame closes, bytes up to the next delimiter are lost, and that delimiter opens. -/
def Obligations.SharedDelimiterLosesTheFrame : Prop :=
  ∀ (d : Dec) (lost : List Byte), d.inFrame = true → d.cmd = 0x00 → (∀ b ∈ lost, b ≠ 0xC0) →
    (d.feed ([0xC0] ++ lost ++ [0xC0])).2 = [⟨0x00, d.payload⟩] ∧
    (d.feed ([0xC0] ++ lost ++ [0xC0])).1.fsm = some .inFrame

/-! ### The frame buffer -/

/-- R51 (append, clear and the whole read) with the canonical form: an append puts its byte at address `dec.len`, leaves
every other address alone, adds the byte at the end of the payload, and keeps the form; a clear empties the payload. -/
def Obligations.AppendExtendsThePayload : Prop :=
  ∀ (d : Dec) (b : Byte), Mem.wf d.buf → d.len.toNat < Config.bufMax →
    (d.append b).payload = d.payload ++ [b] ∧ Mem.read (d.append b).buf d.len.toNat = b ∧
    (∀ a, a ≠ d.len.toNat → Mem.read (d.append b).buf a = Mem.read d.buf a) ∧
    Mem.wf (d.append b).buf ∧ d.clear.payload = []

/-! ### The idle timeout -/

/-- R140 (D10): with a buffer that is not empty and a silence longer than `T_IDLE_MS` (modulo `2^TIME_W`) the decoder goes
IDLE, UNKNOWN, empty; otherwise nothing changes. Either way the timestamp stays and nothing is emitted. -/
def Obligations.TimeoutResetsAStalledFrame : Prop :=
  ∀ (s : State) (now : Time),
    (0 < s.dec.len.toNat ∧ Config.tIdleMs < (now - s.dec.lastByteTimestamp).toNat →
      exec (.idleTimeout now) s = .next { s with
        dec := { s.dec with inFrame := false, escapePending := false, cmd := 0xFE, len := 0 } }) ∧
    (¬(0 < s.dec.len.toNat ∧ Config.tIdleMs < (now - s.dec.lastByteTimestamp).toNat) →
      exec (.idleTimeout now) s = .next s)

/-- R141 (a) (derived): the timeout fires only inside a DATA frame that holds a payload byte. -/
def Obligations.TimeoutFiresOnlyInDataFrames : Prop :=
  ∀ (d : Dec) (now : Time), d.Inv → d.timeout now ≠ d →
    d.inFrame = true ∧ d.cmd = 0x00 ∧ 0 < d.payload.length

/-! ### The encoder -/

/-- R100 and R101: Encode's result is FEND, the command byte as it is, the escaped payload, FEND; no register is
written. -/
def Obligations.EncodeReturnsTheFrame : Prop :=
  (∀ (c : Byte) (payload : List Byte) (s : State), exec (.encodeFrame c payload) s =
    .next { s with out := { s.out with result := .bytes ([0xC0] ++ [c] ++ escape payload ++ [0xC0]) } }) ∧
  escape [] = [] ∧
  (∀ (b : Byte) (payload : List Byte), escape (b :: payload) =
    (if b = 0xC0 then [0xDB, 0xDC] else if b = 0xDB then [0xDB, 0xDD] else [b]) ++ escape payload)

/-- R103: the length law, and its bounds. -/
def Obligations.EncodedLength : Prop :=
  ∀ (c : Byte) (payload : List Byte),
    (kissEncode c payload).length = payload.length + 3 + payload.countP (fun b => b = 0xC0 ∨ b = 0xDB) ∧
    payload.length + 3 ≤ (kissEncode c payload).length ∧
    (kissEncode c payload).length ≤ 2 * payload.length + 3

/-- R106 (derived): an escaped payload holds no 0xC0, and each 0xDB in it is followed by 0xDC or 0xDD. -/
def Obligations.EscapedPayloadShape : Prop :=
  ∀ payload : List Byte, (0xC0 : Byte) ∉ escape payload ∧
    ∀ n : Nat, (escape payload)[n]? = some (0xDB : Byte) →
      (escape payload)[n + 1]? = some (0xDC : Byte) ∨ (escape payload)[n + 1]? = some (0xDD : Byte)

/-! ### Value conversion -/

/-- R177 (D13) and R12: `ticks` is the floor of a tenth clamped to 0 to 255, `raw` the clamped value, and the signed
reading of a byte is its two's complement. -/
def Obligations.ValuesAreClamped : Prop :=
  (∀ ms : Int, ((ticks ms).toNat : Int) = max 0 (min 255 (Int.fdiv ms 10))) ∧
  (∀ value : Int, ((raw value).toNat : Int) = max 0 (min 255 value)) ∧
  (∀ b : Byte, sext8 b = if b.toNat < 128 then (b.toNat : Int) else (b.toNat : Int) - 256)

/-! ### Session commands -/

/-- The rules of setPreamble, setTxTail and setSlotTime: each sends its command code with `ticks(ms)`, names its setting in
a configuration error, and delivers either error to the caller; no other state is written. With the rules' own values
and frames: clamped at 0 and 255, and five bytes long where the value byte is reserved. The spec's own decisions are the
floor (D13), that a count above the length is an error too (D14), and that `ses.online` stays 1 (D18); the model's choice
is what a failed write leaves on the wire, any beginning of the frame (log 5). -/
def Obligations.MillisecondCommandsSendTicks : Prop :=
  (∀ ms : CfgWord,
    SendsFrame (.setPreamble ms) 0x01 (ticks ms.toInt) .preamble (fun s => s.ses.online = true) ∧
    SendsFrame (.setTxTail ms) 0x04 (ticks ms.toInt) .txtail (fun s => s.ses.online = true) ∧
    SendsFrame (.setSlotTime ms) 0x03 (ticks ms.toInt) .slottime (fun s => s.ses.online = true)) ∧
  ticks 3000 = 255 ∧ ticks (-5) = 0 ∧ ticks 120 = 12 ∧
  (∀ ms : Int, 1920 ≤ ms → ms ≤ 1929 → ticks ms = 0xC0) ∧ (∀ ms : Int, 2190 ≤ ms → ms ≤ 2199 → ticks ms = 0xDB) ∧
  (∀ c : Byte, kissEncode c [0xC0] = [0xC0, c, 0xDB, 0xDC, 0xC0] ∧ kissEncode c [0xDB] = [0xC0, c, 0xDB, 0xDD, 0xC0] ∧
    ∀ v : Byte, v ≠ 0xC0 → v ≠ 0xDB → kissEncode c [v] = [0xC0, c, v, 0xC0])

/-- The other commands, likewise: setPersistence, setFlowControl, the diagnostics commands, askForPeak. The spec's own
decisions are the value bytes (D12, D13), the poll's check (D17), that a count above the length is an error too (D14),
and that `ses.online` stays as it was (D18); the model's choice is what a failed write leaves on the wire, any beginning
of the frame (log 5). -/
def Obligations.OtherCommandsSendTheirValue : Prop :=
  (∀ value : CfgWord,
    SendsFrame (.setPersistence value) 0x02 (raw value.toInt) .persistence (fun s => s.ses.online = true)) ∧
  SendsFrame (.setFlowControl true) 0x0F Config.flowOn .flowcontrol (fun s => s.ses.online = true) ∧
  SendsFrame (.setFlowControl false) 0x0F Config.flowOff .flowcontrol (fun s => s.ses.online = true) ∧
  SendsFrame .enableDiagnostics 0x13 Config.diagOn .diagnostics (fun s => s.ses.online = true) ∧
  SendsFrame .disableDiagnostics 0x13 Config.diagOff .diagnostics (fun s => s.ses.online = true) ∧
  SendsFrame .askForPeak 0x12 Config.pollArg .peak (fun s => s.ses.online = true)

/-- R175 (D14, D18: the spec's own decisions): SendCommand of any command, value and setting; the errors go to the caller.
That it runs as an instruction of its own, in every session state and for the caller's side, is the model's choice
(log 13), and so is what a failed write leaves on the wire, any beginning of the frame (log 5). -/
def Obligations.SendCommandWritesOneFrame : Prop :=
  ∀ (c v : Byte) (setting : Setting), SendsFrame (.sendCommand c v setting) c v setting (fun _ => True)

/-- R178 (D19, U6): a command issued while the session is not online is refused, by name. -/
def Obligations.CommandsAreRefusedOffline : Prop :=
  ∀ s : State, s.ses.online = false →
    (∀ w : CfgWord, exec (.setPreamble w) s = .refused .commandNotReady ∧
      exec (.setTxTail w) s = .refused .commandNotReady ∧ exec (.setPersistence w) s = .refused .commandNotReady ∧
      exec (.setSlotTime w) s = .refused .commandNotReady) ∧
    (∀ f, exec (.setFlowControl f) s = .refused .commandNotReady) ∧
    exec .enableDiagnostics s = .refused .commandNotReady ∧
    exec .disableDiagnostics s = .refused .commandNotReady ∧ exec .askForPeak s = .refused .commandNotReady

/-! ### Open -/

/-- R161, R163 to R165 (D12, D16: the spec's decisions on the READY frame's value and the flags): with every transport
answer good, Open passes the serial fields to `T.open`, waits at least `T_SETTLE_MS`, sends the five frames in the
source's order, sets both flags and starts the loop with the decoder at its reset values (the bytes of the buffer, which
have none, stay: log 1) and the time at which it starts. -/
def Obligations.OpenStartsTheSession : Prop :=
  ∀ (cfg : SessionConfig) (s : State) (handle settle start : Nat) (opens : List OpenAnswer)
    (writes : List WriteAnswer) (later : List Nat),
    s.ses.online = false → s.ses.interfaceReady = false → s.ses.openCalled = false → s.ses.txLock = false →
    s.env.openAnswers = .ok handle :: opens →
    s.env.writeAnswers = acceptAll (openSequence cfg) ++ writes →
    s.env.elapsed = settle :: start :: later →
    let loopStart : Time := s.env.clock + BitVec.ofNat Config.timeW (Config.tSettleMs + settle) + BitVec.ofNat Config.timeW start
    exec (.openSession cfg) s = .next { s with
      dec := { inFrame := false, escapePending := false, cmd := 0xFE, buf := s.dec.buf, len := 0,
               lastByteTimestamp := loopStart }
      ses := { s.ses with config := some cfg, handle := some handle, online := true, interfaceReady := true,
                          openCalled := true }
      env := { s.env with openAnswers := opens, writeAnswers := writes, elapsed := later, clock := loopStart }
      out := { s.out with
        opens := s.out.opens ++ [[cfg.devicePath, cfg.baudRate, cfg.byteSize, cfg.parity, cfg.stopBits]]
        wire := s.out.wire ++ (kissEncode 0x01 [ticks cfg.preambleMs.toInt] ++
          kissEncode 0x04 [ticks cfg.txtailMs.toInt] ++ kissEncode 0x02 [raw cfg.persistence.toInt] ++
          kissEncode 0x03 [ticks cfg.slottimeMs.toInt] ++
          kissEncode 0x0F [if cfg.flowControl then Config.flowOn else Config.flowOff])
        result := .ok } }

/-- R162, R211, R215: with `T.open` failing, the error is latched and given to the caller, and no register of the spec
changes; the model's mark that Open was called is set (log 7), and the call of `T.open` is recorded (log 4). -/
def Obligations.FailedTransportOpenChangesNothing : Prop :=
  ∀ (cfg : SessionConfig) (s : State) (opens : List OpenAnswer),
    s.ses.online = false → s.ses.interfaceReady = false → s.ses.openCalled = false →
    s.env.openAnswers = .fail :: opens →
    exec (.openSession cfg) s = .next { s with
      ses := { s.ses with error := .transportOpenError, openCalled := true }
      env := { s.env with openAnswers := opens }
      out := { s.out with
        opens := s.out.opens ++ [[cfg.devicePath, cfg.baudRate, cfg.byteSize, cfg.parity, cfg.stopBits]]
        result := .raised .transportOpenError } }

/-- R166, R216 (D15, the spec's decision): at the first frame of the sequence that raises, Open ends: the frames before
it are on the wire whole, that one as far as accepted, the rest not; the flags and the decoder are as before, the error
is latched and given to the caller, and the session is faulted (log 7). What a write that answers `Fail` leaves of its
frame on the wire, any beginning of it, is the model's choice (log 5). -/
def Obligations.FailedSequenceFaultsTheSession : Prop :=
  ∀ (cfg : SessionConfig) (s : State) (handle k : Nat) (opens : List OpenAnswer) (answer : WriteAnswer)
    (writes : List WriteAnswer) (c v : Byte) (setting : Setting) (e : SesError),
    s.ses.online = false → s.ses.interfaceReady = false → s.ses.openCalled = false → s.ses.txLock = false →
    s.env.openAnswers = .ok handle :: opens →
    (openSequence cfg)[k]? = some (c, v, setting) →
    s.env.writeAnswers = acceptAll ((openSequence cfg).take k) ++ answer :: writes →
    writeError (kissEncode c [v]) setting answer = some e →
    NextHas (exec (.openSession cfg) s) fun t =>
      t.dec = s.dec ∧ t.ses = { s.ses with config := some cfg, handle := some handle, error := e,
                                           openCalled := true, faulted := true } ∧
      t.out.wire = s.out.wire ++ frameBytes (((openSequence cfg).take k).map fun x => (x.1, x.2.1)) ++
        (kissEncode c [v]).take (sentBytes answer) ∧
      t.out.result = .raised e ∧ t.out.callbacks = s.out.callbacks ∧ t.env.rxQueue = s.env.rxQueue ∧
      t.env.writeAnswers = writes

/-- R161's precondition and U6: Open outside CLOSED, or on a session on which it was called before (the mark of log 7), is
refused. -/
def Obligations.SecondOpenIsRefused : Prop :=
  ∀ (cfg : SessionConfig) (s : State),
    ¬(s.ses.online = false ∧ s.ses.interfaceReady = false ∧ s.ses.openCalled = false) →
    exec (.openSession cfg) s = .refused .openNotAllowed

/-! ### The step -/

/-- A step runs the decoded instruction. On the loop's turn in an online session, with the transport answering, the
oldest byte of the queue leaves it, the timestamp becomes `now()` (R191, R192), and the instruction the byte is runs
(R193). On the caller's turn the call record's instruction runs, if it is an operation of the caller's. Turns and scripts
(log 3) and the bytes of a call (log 8) are the model's. -/
def Obligations.StepRunsTheDecodedInstruction : Prop :=
  (∀ (s : State) (b : Byte) (rest arrived : List Byte) (turns : List Turn) (arrivals : List (List Byte))
    (avails reads : List Answer) (gap : Nat) (gaps : List Nat),
    s.ses.online = true → s.env.turns = .loop :: turns → s.env.arrivals = arrived :: arrivals →
    s.env.availAnswers = .ok :: avails → s.env.readAnswers = .ok :: reads → s.env.elapsed = gap :: gaps →
    s.env.rxQueue ++ arrived = b :: rest →
    decode [b] = .ok (decodeByte b) ∧
    step s = exec (decodeByte b) { s with
      dec := { s.dec with lastByteTimestamp := s.env.clock + BitVec.ofNat Config.timeW gap }
      env := { s.env with turns := turns, arrivals := arrivals, availAnswers := avails, readAnswers := reads,
                          elapsed := gaps, rxQueue := rest, clock := s.env.clock + BitVec.ofNat Config.timeW gap } }) ∧
  (∀ (s : State) (record : List Byte) (turns : List Turn) (i : Instr),
    s.env.turns = .call record :: turns → decode record = .ok i → i.isCallerOp = true →
    step s = exec i { s with env := { s.env with turns := turns } })

/-- R196 to R198 (D21, D28: the spec's decisions): with no byte waiting, an iteration runs IDLE.TIMEOUT with `now()`,
waits at least `T_POLL_MS`, and writes the poll frame C0 12 01 C0. -/
def Obligations.IdleIterationPolls : Prop :=
  ∀ (s : State) (turns : List Turn) (arrivals : List (List Byte)) (avails : List Answer) (gap wait : Nat)
    (gaps : List Nat) (writes : List WriteAnswer),
    s.ses.online = true → s.ses.txLock = false → s.env.turns = .loop :: turns → s.env.arrivals = [] :: arrivals →
    s.env.rxQueue = [] → s.env.availAnswers = .ok :: avails → s.env.elapsed = gap :: wait :: gaps →
    s.env.writeAnswers = .ok 4 :: writes →
    let now : Time := s.env.clock + BitVec.ofNat Config.timeW gap
    step s = .next { s with
      dec := s.dec.timeout now
      env := { s.env with turns := turns, arrivals := arrivals, availAnswers := avails, elapsed := gaps,
                          writeAnswers := writes, clock := now + BitVec.ofNat Config.timeW (Config.tPollMs + wait) }
      out := { s.out with wire := s.out.wire ++ [0xC0, 0x12, 0x01, 0xC0] } }

/-- R199 and R218: an error inside the loop is latched and takes the session OFFLINE. A failing `T.avail`, a failing
`T.read1` with the queue, the timestamp and the decoder untouched, and a failing or short poll (D17). What a
failed poll leaves of its frame on the wire, any beginning of it, is the model's choice (log 5). -/
def Obligations.LoopErrorsEndTheSession : Prop :=
  ∀ (s : State) (turns : List Turn) (arrived : List Byte) (arrivals : List (List Byte)) (avails : List Answer),
    s.ses.online = true → s.env.turns = .loop :: turns → s.env.arrivals = arrived :: arrivals →
    (s.env.availAnswers = .fail :: avails →
      step s = .next { s with
        ses := { s.ses with error := .transportIOError, online := false }
        env := { s.env with turns := turns, arrivals := arrivals, availAnswers := avails,
                            rxQueue := s.env.rxQueue ++ arrived } }) ∧
    (∀ reads, s.env.availAnswers = .ok :: avails → s.env.rxQueue ++ arrived ≠ [] →
      s.env.readAnswers = .fail :: reads →
      step s = .next { s with
        ses := { s.ses with error := .transportIOError, online := false }
        env := { s.env with turns := turns, arrivals := arrivals, availAnswers := avails, readAnswers := reads,
                            rxQueue := s.env.rxQueue ++ arrived } }) ∧
    (∀ answer writes e, s.env.availAnswers = .ok :: avails → s.env.rxQueue ++ arrived = [] → s.ses.txLock = false →
      s.env.writeAnswers = answer :: writes → writeError [0xC0, 0x12, 0x01, 0xC0] .peak answer = some e →
      NextHas (step s) fun t =>
        t.ses = { s.ses with error := e, online := false } ∧
        t.out = { s.out with wire := s.out.wire ++ [0xC0, 0x12, 0x01, 0xC0].take (sentBytes answer) } ∧
        (∃ now, t.dec = s.dec.timeout now))

/-- R199 and U21 (D23, the spec's decision): an error of a callback takes the session OFFLINE after the decoder's
step, with the value of the callee's error latched (log 6, the model's choice: unstated by the spec, any value), and a
callback that never returns stops the loop. Both callbacks, by the transition rows and by the byte rows: `onPeakValue`
(RX.PEAK and the byte itself) and `onDataFrame` (RX.CLOSE and FEND). -/
def Obligations.RaisingCallbackEndsTheSession : Prop :=
  ∀ (s : State) (answers : List CallbackAnswer),
    (∀ b : Byte, b ≠ 0xC0 → s.dec.inFrame = true → s.dec.len.toNat < Config.bufMax → s.dec.cmd = 0x12 →
      (∀ e, s.env.callbackAnswers = .raised e :: answers →
        let t : State := { s with
          ses := { s.ses with error := e, online := false }
          env := { s.env with callbackAnswers := answers }
          out := { s.out with callbacks := s.out.callbacks ++ [.onPeakValue (sext8 b)] } }
        exec (.rxPeak b) s = .next t ∧ exec (decodeByte b) s = .next t) ∧
      (s.env.callbackAnswers = .neverReturns :: answers →
        exec (.rxPeak b) s = .fault .callbackStuck ∧ exec (decodeByte b) s = .fault .callbackStuck)) ∧
    (s.dec.inFrame = true → s.dec.cmd = 0x00 → s.dec.len.toNat ≤ Config.bufMax →
      (∀ e, s.env.callbackAnswers = .raised e :: answers →
        let t : State := { s with
          dec := { s.dec with inFrame := false, escapePending := false, len := 0 }
          ses := { s.ses with error := e, online := false }
          env := { s.env with callbackAnswers := answers }
          out := { s.out with callbacks := s.out.callbacks ++ [.onDataFrame s.dec.payload] } }
        exec .rxClose s = .next t ∧ exec .fend s = .next t) ∧
      (s.env.callbackAnswers = .neverReturns :: answers →
        exec .rxClose s = .fault .callbackStuck ∧ exec .fend s = .fault .callbackStuck))

/-- R241 and R205: on the loop's turn a session that is not online does nothing, unless its Open failed, which is the
sticky fault of R166 (D15, U1). -/
def Obligations.OfflineTurnDoesNothing : Prop :=
  ∀ (s : State) (turns : List Turn), s.ses.online = false → s.env.turns = .loop :: turns →
    (s.ses.faulted = false → step s = .next { s with env := { s.env with turns := turns } }) ∧
    (s.ses.faulted = true → step s = .fault .openFailedSession)

/-! ### Whole-machine rules -/

/-- R205: OFFLINE is terminal. No step changes a register, reads a byte, writes or calls back; the session stays
OFFLINE. READY is the only state in which the loop runs: on the loop's turn in CLOSED nothing happens either. -/
def Obligations.OfflineIsTerminal : Prop :=
  (∀ s t : State, s.ses.fsm = some .offline → step s = .next t →
    t.ses.fsm = some .offline ∧ t.dec = s.dec ∧ t.ses = s.ses ∧ t.env.rxQueue = s.env.rxQueue ∧
    t.out.opens = s.out.opens ∧ t.out.wire = s.out.wire ∧ t.out.callbacks = s.out.callbacks) ∧
  (∀ s t : State, s.ses.fsm = some .closed → s.drawTurn.1 = .loop → step s = .next t →
    t.dec = s.dec ∧ t.ses = s.ses ∧ t.env.rxQueue = s.env.rxQueue ∧ t.out = s.out)

/-- R204: the session's transitions are those of the table, and no other: CLOSED becomes READY only on the caller's turn, by
a call of Open that succeeds, and READY becomes OFFLINE only on the loop's turn. The three states are read from the two
flags as the spec's decision D16 sets them (R35). -/
def Obligations.SessionTransitionsAreTheTable : Prop :=
  ∀ s t : State, s.Inv → step s = .next t →
    (s.ses.fsm = some .closed ∧ t.ses.fsm = some .closed) ∨
    (s.ses.fsm = some .closed ∧ t.ses.fsm = some .ready ∧ t.out.result = .ok ∧
      ∃ record cfg, s.drawTurn.1 = .call record ∧ decode record = .ok (.openSession cfg)) ∨
    (s.ses.fsm = some .ready ∧ t.ses.fsm = some .ready) ∨
    (s.ses.fsm = some .ready ∧ t.ses.fsm = some .offline ∧ s.drawTurn.1 = .loop) ∨
    (s.ses.fsm = some .offline ∧ t.ses.fsm = some .offline)

/-- R28: the decoder belongs to the receive loop. A step on the caller's turn leaves every decoder register alone,
unless it is the Open that starts the loop (R40, R165; D16 and D20, the spec's own decisions on the flags and the start
values). -/
def Obligations.CallerLeavesTheDecoderAlone : Prop :=
  ∀ (s t : State) (record : List Byte), s.drawTurn.1 = .call record → step s = .next t →
    t.dec = s.dec ∨ (s.ses.online = false ∧ t.ses.online = true)

/-- R63 (D22, the spec's decision), R75, R179: what a step adds to the transmit stream is a beginning of whole
single-value command frames, one after the other, each of a command the session sends; never another command, never
two frames interleaved. That a write which answers `Fail` leaves only a beginning of its own frame is the model's
choice, the spec being silent (log 5). -/
def Obligations.WireCarriesSessionFramesInOrder : Prop :=
  ∀ s t : State, step s = .next t → ∃ (frames : List (Byte × Byte)) (sent : List Byte),
    t.out.wire = s.out.wire ++ sent ∧ sent <+: frameBytes frames ∧
    ∀ f ∈ frames, f.1 ∈ ([0x01, 0x02, 0x03, 0x04, 0x0F, 0x12, 0x13] : List Byte)

/-- R57, R58, R68 (D26, D27: the spec's decisions): the receive queue is first in first out. On the turn of an online loop
the bytes the environment delivers (log 3) join it at its end, and at most its oldest byte is taken; nothing else enters
it, so nothing the block writes does. On every other turn it stays as it is. -/
def Obligations.ReceiveQueueIsFifo : Prop :=
  ∀ s t : State, step s = .next t →
    (s.drawTurn.1 = .loop → s.ses.online = true →
      ∃ taken, s.env.rxQueue ++ (draw s.env.arrivals Config.freeArrivals s.drawTurn.2.env.draws).1 =
        taken ++ t.env.rxQueue ∧ taken.length ≤ 1) ∧
    (s.drawTurn.1 ≠ .loop ∨ s.ses.online = false → t.env.rxQueue = s.env.rxQueue)

/-- R66 (1), (5) and R122 (derived): a step makes at most one callback, after those before it; the caller's turn makes
none. -/
def Obligations.CallbacksComeOneAtATime : Prop :=
  ∀ s t : State, step s = .next t →
    (∃ made, t.out.callbacks = s.out.callbacks ++ made ∧ made.length ≤ 1) ∧
    (s.drawTurn.1 ≠ .loop → t.out.callbacks = s.out.callbacks)

/-- R202, R258 (derived) and R191: while a byte waits at the top of the loop's iteration, nothing is written. -/
def Obligations.NoPollWhileBytesWait : Prop :=
  ∀ s t : State, s.drawTurn.1 = .loop → s.drawTurn.2.arrive.env.rxQueue ≠ [] → step s = .next t →
    t.out.wire = s.out.wire

/-- R31 and R165: `ses.online` becomes 1 only by an Open that put all five frames on the wire whole. The source never says
when the flag is set; that it is at the end of a fully successful Open is the spec's own decision (D16), which the model
follows (log 12). -/
def Obligations.OnlineOnlyAfterAFullOpen : Prop :=
  ∀ s t : State, step s = .next t → s.ses.online = false → t.ses.online = true →
    ∃ cfg, t.ses.config = some cfg ∧
      t.out.wire = s.out.wire ++ frameBytes ((openSequence cfg).map fun x => (x.1, x.2.1))

/-! ### Frames: what an instruction leaves alone -/

/-- The rows that a received byte is (SPECIAL, CMD, RXBYTE). The timestamp, the configuration, the handle, the lock,
`interface_ready` and the marks are unchanged; `ses.error` and `ses.online` change only where the row makes a callback
and that callback raises (the value latched is the callee's: log 6, the model's choice); the queue, the time, the wire
and the call's result are unchanged; callbacks are only added, at most one. The byte at address `dec.len` may change,
every other byte of memory reads as before. -/
def Obligations.ReceivedRowsFrame : Prop :=
  ∀ (i : Instr) (s : State), i.isReceived = true → WheneverNext (exec i s) fun t =>
    t.dec.lastByteTimestamp = s.dec.lastByteTimestamp ∧
    (t.ses = s.ses ∨ ∃ c e, t.out.callbacks = s.out.callbacks ++ [c] ∧ s.drawCallback.1 = .raised e ∧
      t.ses = { s.ses with error := e, online := false }) ∧
    t.env.rxQueue = s.env.rxQueue ∧ t.env.clock = s.env.clock ∧ t.out.opens = s.out.opens ∧
    t.out.wire = s.out.wire ∧ t.out.result = s.out.result ∧
    (∃ made, t.out.callbacks = s.out.callbacks ++ made ∧ made.length ≤ 1) ∧
    ∀ a, a ≠ s.dec.len.toNat → Mem.read t.dec.buf a = Mem.read s.dec.buf a

/-- The transition rows one by one: which decoder registers each may write (R123), and that a row which stores nothing
leaves every byte of memory. -/
def Obligations.TransitionRowsFrame : Prop :=
  ∀ (s : State) (b : Byte),
    WheneverNext (exec .rxClose s) (fun t => t.dec.cmd = s.dec.cmd ∧ ∀ a, Mem.read t.dec.buf a = Mem.read s.dec.buf a) ∧
    WheneverNext (exec .rxOpen s) (fun t => ∀ a, Mem.read t.dec.buf a = Mem.read s.dec.buf a) ∧
    WheneverNext (exec (.rxSel b) s) (fun t => t.dec.inFrame = s.dec.inFrame ∧ t.dec.len = s.dec.len ∧
      t.dec.escapePending = s.dec.escapePending ∧ ∀ a, Mem.read t.dec.buf a = Mem.read s.dec.buf a) ∧
    WheneverNext (exec .rxFesc s) (fun t => t.dec.inFrame = s.dec.inFrame ∧ t.dec.len = s.dec.len ∧
      t.dec.cmd = s.dec.cmd ∧ ∀ a, Mem.read t.dec.buf a = Mem.read s.dec.buf a) ∧
    WheneverNext (exec (.rxUnesc b) s) (fun t => t.dec.inFrame = s.dec.inFrame ∧ t.dec.cmd = s.dec.cmd ∧
      ∀ a, a ≠ s.dec.len.toNat → Mem.read t.dec.buf a = Mem.read s.dec.buf a) ∧
    WheneverNext (exec (.rxPlain b) s) (fun t => t.dec.inFrame = s.dec.inFrame ∧ t.dec.cmd = s.dec.cmd ∧
      t.dec.escapePending = s.dec.escapePending ∧
      ∀ a, a ≠ s.dec.len.toNat → Mem.read t.dec.buf a = Mem.read s.dec.buf a) ∧
    WheneverNext (exec (.rxPeak b) s) (fun t => t.dec = s.dec) ∧
    WheneverNext (exec (.rxIgnore b) s) (fun t => t.dec = s.dec) ∧
    WheneverNext (exec (.rxDropFull b) s) (fun t => t.dec = s.dec) ∧
    WheneverNext (exec (.rxDropIdle b) s) (fun t => t.dec = s.dec)

/-- The caller's commands, SendCommand, Encode and IDLE.TIMEOUT: the commands and functions leave the whole decoder,
memory with it, and every session register but `ses.error`; the timeout leaves the session, the streams and every byte
of memory. The queue, the time, the callbacks and `T.open`'s calls are unchanged by all of them. -/
def Obligations.CommandsFrame : Prop :=
  ∀ (i : Instr) (s : State), i.isReceived = false → (∀ cfg, i ≠ .openSession cfg) → WheneverNext (exec i s) fun t =>
    (i.isCallerOp = true ∨ (∃ c v setting, i = .sendCommand c v setting) → t.dec = s.dec) ∧
    (∃ e, t.ses = { s.ses with error := e }) ∧
    (∀ now, i = .idleTimeout now → t.ses = s.ses ∧ t.out = s.out ∧
      t.dec.lastByteTimestamp = s.dec.lastByteTimestamp ∧ ∀ a, Mem.read t.dec.buf a = Mem.read s.dec.buf a) ∧
    (∀ c payload, i = .encodeFrame c payload → t.ses = s.ses ∧ t.out.wire = s.out.wire) ∧
    t.env.rxQueue = s.env.rxQueue ∧ t.env.clock = s.env.clock ∧ t.out.opens = s.out.opens ∧
    t.out.callbacks = s.out.callbacks ∧ s.out.wire <+: t.out.wire

/-- Open: every byte of memory, the queue and the callbacks are unchanged; the wire only grows; the lock stays free; the
decoder's registers change only when the session becomes online. That Open leaves the bytes of the buffer is the model's
choice: the spec leaves them unspecified when the loop starts (log 1). -/
def Obligations.OpenFrame : Prop :=
  ∀ (cfg : SessionConfig) (s : State), WheneverNext (exec (.openSession cfg) s) fun t =>
    (∀ a, Mem.read t.dec.buf a = Mem.read s.dec.buf a) ∧ (t.ses.online = false → t.dec = s.dec) ∧
    (s.ses.txLock = false → t.ses.txLock = false) ∧ t.env.rxQueue = s.env.rxQueue ∧
    t.out.callbacks = s.out.callbacks ∧ s.out.wire <+: t.out.wire

/-! ### Encoding -/

/-- Decode and encode agree: for every well-formed instruction that is no transition row, decoding its bytes gives it
back, with every operand at every value. The records of calls without a frame of their own are the model's (log 8). -/
def Obligations.DecodeOfEncode : Prop :=
  ∀ i : Instr, i.wf = true → i.rxRow = none → decode (encode i) = .ok i

/-- The transition rows (R93, R123): the bytes are the one received byte, decoding it with the decoder's registers gives
the row back exactly where its transition is the selected one, and there are such registers. -/
def Obligations.DecodeOfTransitionRows : Prop :=
  ∀ (i : Instr) (t : Transition) (b : Byte), i.wf = true → i.rxRow = some (t, b) →
    encode i = [b] ∧
    (∀ d : Dec, decodeRx d.inFrame d.escapePending d.cmd d.len b = i ↔ d.select b = t) ∧
    ∃ d : Dec, d.Inv ∧ decodeRx d.inFrame d.escapePending d.cmd d.len b = i

/-- What decodes is well formed, and no transition row (those need the registers). -/
def Obligations.DecodedInstructionsAreWellFormed : Prop :=
  ∀ (bytes : List Byte) (i : Instr), decode bytes = .ok i → i.wf = true ∧ i.rxRow = none

/-- R76, R92, R93: a frame that decodes to a host operation is the frame that operation sends: issued in an online
session whose transport accepts it whole, the operation puts exactly those bytes on the wire. -/
def Obligations.HostFrameIsWhatTheOperationSends : Prop :=
  ∀ (rest : List Byte) (i : Instr) (s : State) (writes : List WriteAnswer), rest ≠ [] →
    decode (0xC0 :: rest) = .ok i → s.ses.online = true → s.ses.txLock = false →
    s.env.writeAnswers = .ok (0xC0 :: rest).length :: writes →
    exec i s = .next { s with
      env := { s.env with writeAnswers := writes }
      out := { s.out with wire := s.out.wire ++ 0xC0 :: rest, result := .ok } }

/-- A few words of the opcode table, by the spec's own encodings (R72, R75, R76, R93), laid out as log 9 says. -/
def Obligations.TableWordsDecode : Prop :=
  decodeTableWord 8 0xC0 = some .fend ∧ decodeTableWord 8 0xDB = some .fesc ∧
  decodeTableWord 8 0x12 = some .audioPeak ∧ decodeTableWord 8 0x0F = some .ready ∧
  decodeTableWord 8 0x07 = some (.unassigned 0x07) ∧
  decodeTableWord 32 0xC0010CC0 = some (.setPreamble 120) ∧
  decodeTableWord 32 0xC00F01C0 = some (.setFlowControl true) ∧
  decodeTableWord 32 0xC01300C0 = some .disableDiagnostics ∧
  decodeTableWord 32 0xC01201C0 = some .askForPeak
end

