-- ==== Sys2Proof/Laws/State.lean ====
section
/-! SUPPORT. What each update of the state does to each field: true by unfolding, for simp, so that no proof unfolds a
record update. -/

namespace Sys2Proof.Machine

/-! `State.drawTurn` -/

@[simp] theorem State.drawTurn_dec (s : State) :
    s.drawTurn.2.dec = s.dec := rfl

@[simp] theorem State.drawTurn_ses (s : State) :
    s.drawTurn.2.ses = s.ses := rfl

@[simp] theorem State.drawTurn_out (s : State) :
    s.drawTurn.2.out = s.out := rfl

@[simp] theorem State.drawTurn_env_rxQueue (s : State) :
    s.drawTurn.2.env.rxQueue = s.env.rxQueue := rfl

@[simp] theorem State.drawTurn_env_clock (s : State) :
    s.drawTurn.2.env.clock = s.env.clock := rfl

/-! `State.drawOpen` -/

@[simp] theorem State.drawOpen_dec (s : State) :
    s.drawOpen.2.dec = s.dec := rfl

@[simp] theorem State.drawOpen_ses (s : State) :
    s.drawOpen.2.ses = s.ses := rfl

@[simp] theorem State.drawOpen_out (s : State) :
    s.drawOpen.2.out = s.out := rfl

@[simp] theorem State.drawOpen_env_rxQueue (s : State) :
    s.drawOpen.2.env.rxQueue = s.env.rxQueue := rfl

@[simp] theorem State.drawOpen_env_clock (s : State) :
    s.drawOpen.2.env.clock = s.env.clock := rfl

/-! `State.drawAvail` -/

@[simp] theorem State.drawAvail_dec (s : State) :
    s.drawAvail.2.dec = s.dec := rfl

@[simp] theorem State.drawAvail_ses (s : State) :
    s.drawAvail.2.ses = s.ses := rfl

@[simp] theorem State.drawAvail_out (s : State) :
    s.drawAvail.2.out = s.out := rfl

@[simp] theorem State.drawAvail_env_rxQueue (s : State) :
    s.drawAvail.2.env.rxQueue = s.env.rxQueue := rfl

@[simp] theorem State.drawAvail_env_clock (s : State) :
    s.drawAvail.2.env.clock = s.env.clock := rfl

/-! `State.drawRead` -/

@[simp] theorem State.drawRead_dec (s : State) :
    s.drawRead.2.dec = s.dec := rfl

@[simp] theorem State.drawRead_ses (s : State) :
    s.drawRead.2.ses = s.ses := rfl

@[simp] theorem State.drawRead_out (s : State) :
    s.drawRead.2.out = s.out := rfl

@[simp] theorem State.drawRead_env_rxQueue (s : State) :
    s.drawRead.2.env.rxQueue = s.env.rxQueue := rfl

@[simp] theorem State.drawRead_env_clock (s : State) :
    s.drawRead.2.env.clock = s.env.clock := rfl

/-! `State.drawWrite` -/

@[simp] theorem State.drawWrite_dec (s : State) :
    s.drawWrite.2.dec = s.dec := rfl

@[simp] theorem State.drawWrite_ses (s : State) :
    s.drawWrite.2.ses = s.ses := rfl

@[simp] theorem State.drawWrite_out (s : State) :
    s.drawWrite.2.out = s.out := rfl

@[simp] theorem State.drawWrite_env_rxQueue (s : State) :
    s.drawWrite.2.env.rxQueue = s.env.rxQueue := rfl

@[simp] theorem State.drawWrite_env_clock (s : State) :
    s.drawWrite.2.env.clock = s.env.clock := rfl

/-! `State.drawCallback` -/

@[simp] theorem State.drawCallback_dec (s : State) :
    s.drawCallback.2.dec = s.dec := rfl

@[simp] theorem State.drawCallback_ses (s : State) :
    s.drawCallback.2.ses = s.ses := rfl

@[simp] theorem State.drawCallback_out (s : State) :
    s.drawCallback.2.out = s.out := rfl

@[simp] theorem State.drawCallback_env_rxQueue (s : State) :
    s.drawCallback.2.env.rxQueue = s.env.rxQueue := rfl

@[simp] theorem State.drawCallback_env_clock (s : State) :
    s.drawCallback.2.env.clock = s.env.clock := rfl

/-! `State.arrive`, `State.pass`, `State.now` -/

@[simp] theorem State.arrive_dec (s : State) :
    s.arrive.dec = s.dec := rfl

@[simp] theorem State.arrive_ses (s : State) :
    s.arrive.ses = s.ses := rfl

@[simp] theorem State.arrive_out (s : State) :
    s.arrive.out = s.out := rfl

@[simp] theorem State.arrive_env_clock (s : State) :
    s.arrive.env.clock = s.env.clock := rfl

@[simp] theorem State.pass_dec (n : Nat) (s : State) :
    (s.pass n).dec = s.dec := rfl

@[simp] theorem State.pass_ses (n : Nat) (s : State) :
    (s.pass n).ses = s.ses := rfl

@[simp] theorem State.pass_out (n : Nat) (s : State) :
    (s.pass n).out = s.out := rfl

@[simp] theorem State.pass_env_rxQueue (n : Nat) (s : State) :
    (s.pass n).env.rxQueue = s.env.rxQueue := rfl

@[simp] theorem State.now_dec (s : State) :
    s.now.2.dec = s.dec := rfl

@[simp] theorem State.now_ses (s : State) :
    s.now.2.ses = s.ses := rfl

@[simp] theorem State.now_out (s : State) :
    s.now.2.out = s.out := rfl

@[simp] theorem State.now_env_rxQueue (s : State) :
    s.now.2.env.rxQueue = s.env.rxQueue := rfl

@[simp] theorem State.now_value (s : State) :
    s.now.1 = s.now.2.env.clock := rfl

/-! `State.setLock`, `State.write` -/

@[simp] theorem State.setLock_dec (h : Bool) (s : State) :
    (s.setLock h).dec = s.dec := rfl

@[simp] theorem State.setLock_env (h : Bool) (s : State) :
    (s.setLock h).env = s.env := rfl

@[simp] theorem State.setLock_out (h : Bool) (s : State) :
    (s.setLock h).out = s.out := rfl

@[simp] theorem State.setLock_ses_config (h : Bool) (s : State) :
    (s.setLock h).ses.config = s.ses.config := rfl

@[simp] theorem State.setLock_ses_online (h : Bool) (s : State) :
    (s.setLock h).ses.online = s.ses.online := rfl

@[simp] theorem State.setLock_ses_interfaceReady (h : Bool) (s : State) :
    (s.setLock h).ses.interfaceReady = s.ses.interfaceReady := rfl

@[simp] theorem State.setLock_ses_handle (h : Bool) (s : State) :
    (s.setLock h).ses.handle = s.ses.handle := rfl

@[simp] theorem State.setLock_ses_error (h : Bool) (s : State) :
    (s.setLock h).ses.error = s.ses.error := rfl

@[simp] theorem State.setLock_ses_openCalled (h : Bool) (s : State) :
    (s.setLock h).ses.openCalled = s.ses.openCalled := rfl

@[simp] theorem State.setLock_ses_faulted (h : Bool) (s : State) :
    (s.setLock h).ses.faulted = s.ses.faulted := rfl

@[simp] theorem State.setLock_ses_txLock (h : Bool) (s : State) :
    (s.setLock h).ses.txLock = h := rfl

@[simp] theorem State.write_dec (frame : List Byte) (s : State) :
    (s.write frame).2.dec = s.dec := rfl

@[simp] theorem State.write_ses (frame : List Byte) (s : State) :
    (s.write frame).2.ses = s.ses := rfl

@[simp] theorem State.write_env_rxQueue (frame : List Byte) (s : State) :
    (s.write frame).2.env.rxQueue = s.env.rxQueue := rfl

@[simp] theorem State.write_env_clock (frame : List Byte) (s : State) :
    (s.write frame).2.env.clock = s.env.clock := rfl

@[simp] theorem State.write_out_opens (frame : List Byte) (s : State) :
    (s.write frame).2.out.opens = s.out.opens := rfl

@[simp] theorem State.write_out_callbacks (frame : List Byte) (s : State) :
    (s.write frame).2.out.callbacks = s.out.callbacks := rfl

@[simp] theorem State.write_out_result (frame : List Byte) (s : State) :
    (s.write frame).2.out.result = s.out.result := rfl

@[simp] theorem State.write_out_wire (frame : List Byte) (s : State) :
    (s.write frame).2.out.wire = s.out.wire ++ frame.take (sentBytes s.drawWrite.1) := rfl

@[simp] theorem State.write_answer (frame : List Byte) (s : State) :
    (s.write frame).1 = s.drawWrite.1 := rfl

@[simp] theorem State.setLock_drawWrite (h : Bool) (s : State) :
    (s.setLock h).drawWrite.1 = s.drawWrite.1 := rfl

/-! `sendFrame` -/

@[simp] theorem sendFrame_dec (c v : Byte) (setting : Setting) (s : State) :
    (sendFrame c v setting s).2.dec = s.dec := rfl

@[simp] theorem sendFrame_env_rxQueue (c v : Byte) (setting : Setting) (s : State) :
    (sendFrame c v setting s).2.env.rxQueue = s.env.rxQueue := rfl

@[simp] theorem sendFrame_env_clock (c v : Byte) (setting : Setting) (s : State) :
    (sendFrame c v setting s).2.env.clock = s.env.clock := rfl

@[simp] theorem sendFrame_out_opens (c v : Byte) (setting : Setting) (s : State) :
    (sendFrame c v setting s).2.out.opens = s.out.opens := rfl

@[simp] theorem sendFrame_out_callbacks (c v : Byte) (setting : Setting) (s : State) :
    (sendFrame c v setting s).2.out.callbacks = s.out.callbacks := rfl

@[simp] theorem sendFrame_out_result (c v : Byte) (setting : Setting) (s : State) :
    (sendFrame c v setting s).2.out.result = s.out.result := rfl

@[simp] theorem sendFrame_ses_config (c v : Byte) (setting : Setting) (s : State) :
    (sendFrame c v setting s).2.ses.config = s.ses.config := rfl

@[simp] theorem sendFrame_ses_online (c v : Byte) (setting : Setting) (s : State) :
    (sendFrame c v setting s).2.ses.online = s.ses.online := rfl

@[simp] theorem sendFrame_ses_interfaceReady (c v : Byte) (setting : Setting) (s : State) :
    (sendFrame c v setting s).2.ses.interfaceReady = s.ses.interfaceReady := rfl

@[simp] theorem sendFrame_ses_handle (c v : Byte) (setting : Setting) (s : State) :
    (sendFrame c v setting s).2.ses.handle = s.ses.handle := rfl

@[simp] theorem sendFrame_ses_error (c v : Byte) (setting : Setting) (s : State) :
    (sendFrame c v setting s).2.ses.error = s.ses.error := rfl

@[simp] theorem sendFrame_ses_openCalled (c v : Byte) (setting : Setting) (s : State) :
    (sendFrame c v setting s).2.ses.openCalled = s.ses.openCalled := rfl

@[simp] theorem sendFrame_ses_faulted (c v : Byte) (setting : Setting) (s : State) :
    (sendFrame c v setting s).2.ses.faulted = s.ses.faulted := rfl

@[simp] theorem sendFrame_ses_txLock (c v : Byte) (setting : Setting) (s : State) :
    (sendFrame c v setting s).2.ses.txLock = false := rfl

@[simp] theorem sendFrame_out_wire (c v : Byte) (setting : Setting) (s : State) :
    (sendFrame c v setting s).2.out.wire = s.out.wire ++ (kissEncode c [v]).take (sentBytes s.drawWrite.1) := rfl

@[simp] theorem sendFrame_error (c v : Byte) (setting : Setting) (s : State) :
    (sendFrame c v setting s).1 = writeError (kissEncode c [v]) setting s.drawWrite.1 := rfl

/-! `State.takeError` -/

@[simp] theorem State.takeError_dec (site : ErrorSite) (e : SesError) (s : State) :
    (s.takeError site e).dec = s.dec := by cases site <;> rfl

@[simp] theorem State.takeError_env (site : ErrorSite) (e : SesError) (s : State) :
    (s.takeError site e).env = s.env := by cases site <;> rfl

@[simp] theorem State.takeError_out_opens (site : ErrorSite) (e : SesError) (s : State) :
    (s.takeError site e).out.opens = s.out.opens := by cases site <;> rfl

@[simp] theorem State.takeError_out_wire (site : ErrorSite) (e : SesError) (s : State) :
    (s.takeError site e).out.wire = s.out.wire := by cases site <;> rfl

@[simp] theorem State.takeError_out_callbacks (site : ErrorSite) (e : SesError) (s : State) :
    (s.takeError site e).out.callbacks = s.out.callbacks := by cases site <;> rfl

@[simp] theorem State.takeError_ses_config (site : ErrorSite) (e : SesError) (s : State) :
    (s.takeError site e).ses.config = s.ses.config := by cases site <;> rfl

@[simp] theorem State.takeError_ses_interfaceReady (site : ErrorSite) (e : SesError) (s : State) :
    (s.takeError site e).ses.interfaceReady = s.ses.interfaceReady := by cases site <;> rfl

@[simp] theorem State.takeError_ses_handle (site : ErrorSite) (e : SesError) (s : State) :
    (s.takeError site e).ses.handle = s.ses.handle := by cases site <;> rfl

@[simp] theorem State.takeError_ses_txLock (site : ErrorSite) (e : SesError) (s : State) :
    (s.takeError site e).ses.txLock = s.ses.txLock := by cases site <;> rfl

@[simp] theorem State.takeError_ses_openCalled (site : ErrorSite) (e : SesError) (s : State) :
    (s.takeError site e).ses.openCalled = s.ses.openCalled := by cases site <;> rfl

@[simp] theorem State.takeError_ses_error (site : ErrorSite) (e : SesError) (s : State) :
    (s.takeError site e).ses.error = e := by cases site <;> rfl

@[simp] theorem State.takeError_openCall_online (e : SesError) (s : State) :
    (s.takeError .openCall e).ses.online = s.ses.online := rfl

@[simp] theorem State.takeError_openCall_result (e : SesError) (s : State) :
    (s.takeError .openCall e).out.result = .raised e := rfl

@[simp] theorem State.takeError_openSequence_online (e : SesError) (s : State) :
    (s.takeError .openSequence e).ses.online = s.ses.online := rfl

@[simp] theorem State.takeError_openSequence_result (e : SesError) (s : State) :
    (s.takeError .openSequence e).out.result = .raised e := rfl

@[simp] theorem State.takeError_callerCommand_online (e : SesError) (s : State) :
    (s.takeError .callerCommand e).ses.online = s.ses.online := rfl

@[simp] theorem State.takeError_callerCommand_result (e : SesError) (s : State) :
    (s.takeError .callerCommand e).out.result = .raised e := rfl

@[simp] theorem State.takeError_loop_online (e : SesError) (s : State) :
    (s.takeError .loop e).ses.online = false := rfl

@[simp] theorem State.takeError_loop_out (e : SesError) (s : State) :
    (s.takeError .loop e).out = s.out := rfl

@[simp] theorem State.takeError_openCall_faulted (e : SesError) (s : State) :
    (s.takeError .openCall e).ses.faulted = s.ses.faulted := rfl

@[simp] theorem State.takeError_callerCommand_faulted (e : SesError) (s : State) :
    (s.takeError .callerCommand e).ses.faulted = s.ses.faulted := rfl

@[simp] theorem State.takeError_loop_faulted (e : SesError) (s : State) :
    (s.takeError .loop e).ses.faulted = s.ses.faulted := rfl

@[simp] theorem State.takeError_openSequence_faulted (e : SesError) (s : State) :
    (s.takeError .openSequence e).ses.faulted = true := rfl

/-! `State.fetched`, `State.startLoop`, `State.callOpen` -/

@[simp] theorem State.fetched_ses (rest : List Byte) (s : State) :
    (s.fetched rest).ses = s.ses := rfl

@[simp] theorem State.fetched_out (rest : List Byte) (s : State) :
    (s.fetched rest).out = s.out := rfl

@[simp] theorem State.fetched_dec_inFrame (rest : List Byte) (s : State) :
    (s.fetched rest).dec.inFrame = s.dec.inFrame := rfl

@[simp] theorem State.fetched_dec_escapePending (rest : List Byte) (s : State) :
    (s.fetched rest).dec.escapePending = s.dec.escapePending := rfl

@[simp] theorem State.fetched_dec_cmd (rest : List Byte) (s : State) :
    (s.fetched rest).dec.cmd = s.dec.cmd := rfl

@[simp] theorem State.fetched_dec_buf (rest : List Byte) (s : State) :
    (s.fetched rest).dec.buf = s.dec.buf := rfl

@[simp] theorem State.fetched_dec_len (rest : List Byte) (s : State) :
    (s.fetched rest).dec.len = s.dec.len := rfl

@[simp] theorem State.fetched_env_rxQueue (rest : List Byte) (s : State) :
    (s.fetched rest).env.rxQueue = rest := rfl

@[simp] theorem State.fetched_dec_lastByteTimestamp (rest : List Byte) (s : State) :
    (s.fetched rest).dec.lastByteTimestamp = (s.fetched rest).env.clock := rfl

@[simp] theorem State.startLoop_env_rxQueue (s : State) :
    s.startLoop.env.rxQueue = s.env.rxQueue := rfl

@[simp] theorem State.startLoop_out_opens (s : State) :
    s.startLoop.out.opens = s.out.opens := rfl

@[simp] theorem State.startLoop_out_wire (s : State) :
    s.startLoop.out.wire = s.out.wire := rfl

@[simp] theorem State.startLoop_out_callbacks (s : State) :
    s.startLoop.out.callbacks = s.out.callbacks := rfl

@[simp] theorem State.startLoop_ses_config (s : State) :
    s.startLoop.ses.config = s.ses.config := rfl

@[simp] theorem State.startLoop_ses_handle (s : State) :
    s.startLoop.ses.handle = s.ses.handle := rfl

@[simp] theorem State.startLoop_ses_error (s : State) :
    s.startLoop.ses.error = s.ses.error := rfl

@[simp] theorem State.startLoop_ses_txLock (s : State) :
    s.startLoop.ses.txLock = s.ses.txLock := rfl

@[simp] theorem State.startLoop_ses_openCalled (s : State) :
    s.startLoop.ses.openCalled = s.ses.openCalled := rfl

@[simp] theorem State.startLoop_ses_faulted (s : State) :
    s.startLoop.ses.faulted = s.ses.faulted := rfl

@[simp] theorem State.startLoop_ses_online (s : State) :
    s.startLoop.ses.online = true := rfl

@[simp] theorem State.startLoop_ses_interfaceReady (s : State) :
    s.startLoop.ses.interfaceReady = true := rfl

@[simp] theorem State.startLoop_out_result (s : State) :
    s.startLoop.out.result = .ok := rfl

@[simp] theorem State.startLoop_dec (s : State) :
    s.startLoop.dec = s.dec.restart s.now.1 := rfl

@[simp] theorem State.callOpen_dec (cfg : SessionConfig) (s : State) :
    (s.callOpen cfg).2.dec = s.dec := rfl

@[simp] theorem State.callOpen_env_rxQueue (cfg : SessionConfig) (s : State) :
    (s.callOpen cfg).2.env.rxQueue = s.env.rxQueue := rfl

@[simp] theorem State.callOpen_env_clock (cfg : SessionConfig) (s : State) :
    (s.callOpen cfg).2.env.clock = s.env.clock := rfl

@[simp] theorem State.callOpen_out_wire (cfg : SessionConfig) (s : State) :
    (s.callOpen cfg).2.out.wire = s.out.wire := rfl

@[simp] theorem State.callOpen_out_callbacks (cfg : SessionConfig) (s : State) :
    (s.callOpen cfg).2.out.callbacks = s.out.callbacks := rfl

@[simp] theorem State.callOpen_out_result (cfg : SessionConfig) (s : State) :
    (s.callOpen cfg).2.out.result = s.out.result := rfl

@[simp] theorem State.callOpen_ses_config (cfg : SessionConfig) (s : State) :
    (s.callOpen cfg).2.ses.config = s.ses.config := rfl

@[simp] theorem State.callOpen_ses_online (cfg : SessionConfig) (s : State) :
    (s.callOpen cfg).2.ses.online = s.ses.online := rfl

@[simp] theorem State.callOpen_ses_interfaceReady (cfg : SessionConfig) (s : State) :
    (s.callOpen cfg).2.ses.interfaceReady = s.ses.interfaceReady := rfl

@[simp] theorem State.callOpen_ses_handle (cfg : SessionConfig) (s : State) :
    (s.callOpen cfg).2.ses.handle = s.ses.handle := rfl

@[simp] theorem State.callOpen_ses_error (cfg : SessionConfig) (s : State) :
    (s.callOpen cfg).2.ses.error = s.ses.error := rfl

@[simp] theorem State.callOpen_ses_txLock (cfg : SessionConfig) (s : State) :
    (s.callOpen cfg).2.ses.txLock = s.ses.txLock := rfl

@[simp] theorem State.callOpen_ses_faulted (cfg : SessionConfig) (s : State) :
    (s.callOpen cfg).2.ses.faulted = s.ses.faulted := rfl

@[simp] theorem State.callOpen_ses_openCalled (cfg : SessionConfig) (s : State) :
    (s.callOpen cfg).2.ses.openCalled = true := rfl

@[simp] theorem State.callOpen_out_opens (cfg : SessionConfig) (s : State) :
    (s.callOpen cfg).2.out.opens = s.out.opens ++ [serialArguments cfg] := rfl

@[simp] theorem State.callOpen_answer (cfg : SessionConfig) (s : State) :
    (s.callOpen cfg).1 = s.drawOpen.1 := rfl

/-! `Dec.setFsm`, `Dec.clear`, `Dec.append`, `Dec.restart` -/

@[simp] theorem Dec.setFsm_cmd (f : DecFsm) (d : Dec) :
    (d.setFsm f).cmd = d.cmd := by cases f <;> rfl

@[simp] theorem Dec.setFsm_buf (f : DecFsm) (d : Dec) :
    (d.setFsm f).buf = d.buf := by cases f <;> rfl

@[simp] theorem Dec.setFsm_len (f : DecFsm) (d : Dec) :
    (d.setFsm f).len = d.len := by cases f <;> rfl

@[simp] theorem Dec.setFsm_lastByteTimestamp (f : DecFsm) (d : Dec) :
    (d.setFsm f).lastByteTimestamp = d.lastByteTimestamp := by cases f <;> rfl

@[simp] theorem Dec.setFsm_idle_inFrame (d : Dec) :
    (d.setFsm .idle).inFrame = false := rfl

@[simp] theorem Dec.setFsm_idle_escapePending (d : Dec) :
    (d.setFsm .idle).escapePending = false := rfl

@[simp] theorem Dec.setFsm_inFrame_inFrame (d : Dec) :
    (d.setFsm .inFrame).inFrame = true := rfl

@[simp] theorem Dec.setFsm_inFrame_escapePending (d : Dec) :
    (d.setFsm .inFrame).escapePending = false := rfl

@[simp] theorem Dec.setFsm_escaped_inFrame (d : Dec) :
    (d.setFsm .escaped).inFrame = true := rfl

@[simp] theorem Dec.setFsm_escaped_escapePending (d : Dec) :
    (d.setFsm .escaped).escapePending = true := rfl

@[simp] theorem Dec.clear_inFrame (d : Dec) :
    d.clear.inFrame = d.inFrame := rfl

@[simp] theorem Dec.clear_escapePending (d : Dec) :
    d.clear.escapePending = d.escapePending := rfl

@[simp] theorem Dec.clear_cmd (d : Dec) :
    d.clear.cmd = d.cmd := rfl

@[simp] theorem Dec.clear_buf (d : Dec) :
    d.clear.buf = d.buf := rfl

@[simp] theorem Dec.clear_lastByteTimestamp (d : Dec) :
    d.clear.lastByteTimestamp = d.lastByteTimestamp := rfl

@[simp] theorem Dec.clear_len (d : Dec) :
    d.clear.len = 0 := rfl

@[simp] theorem Dec.append_inFrame (b : Byte) (d : Dec) :
    (d.append b).inFrame = d.inFrame := rfl

@[simp] theorem Dec.append_escapePending (b : Byte) (d : Dec) :
    (d.append b).escapePending = d.escapePending := rfl

@[simp] theorem Dec.append_cmd (b : Byte) (d : Dec) :
    (d.append b).cmd = d.cmd := rfl

@[simp] theorem Dec.append_lastByteTimestamp (b : Byte) (d : Dec) :
    (d.append b).lastByteTimestamp = d.lastByteTimestamp := rfl

@[simp] theorem Dec.append_buf (b : Byte) (d : Dec) :
    (d.append b).buf = Mem.write d.buf d.len.toNat b := rfl

@[simp] theorem Dec.append_len (b : Byte) (d : Dec) :
    (d.append b).len = d.len + 1 := rfl

@[simp] theorem Dec.restart_inFrame (t : Time) (d : Dec) :
    (d.restart t).inFrame = false := rfl

@[simp] theorem Dec.restart_escapePending (t : Time) (d : Dec) :
    (d.restart t).escapePending = false := rfl

@[simp] theorem Dec.restart_cmd (t : Time) (d : Dec) :
    (d.restart t).cmd = Config.cmdUnknown := rfl

@[simp] theorem Dec.restart_len (t : Time) (d : Dec) :
    (d.restart t).len = 0 := rfl

@[simp] theorem Dec.restart_lastByteTimestamp (t : Time) (d : Dec) :
    (d.restart t).lastByteTimestamp = t := rfl

@[simp] theorem Dec.restart_buf (t : Time) (d : Dec) :
    (d.restart t).buf = d.buf := rfl

end Sys2Proof.Machine
end

