-- ==== Sys2Proof/Laws/Memory.lean ====
section
/-! SUPPORT. The laws of the frame buffer's memory: a read after a write, the canonical form, and what appending does
to the payload. -/

namespace Sys2Proof.Machine

theorem Mem.read_eq_unlisted {m : List Host.Cell} {a : Nat} (h : ∀ c ∈ m, c.1 ≠ a) :
    Mem.read m a = Config.unlistedByte := by
  induction m with
  | nil => rfl
  | cons c m ih =>
    have hc : a ≠ c.1 := fun e => h c (by simp) e.symm
    simp only [Mem.read, if_neg hc]
    exact ih (fun c' hc' => h c' (by simp [hc']))

theorem Mem.mem_write {m : List Host.Cell} {a : Nat} {v : Byte} {c : Host.Cell} (h : c ∈ Mem.write m a v) :
    c ∈ m ∨ (c = (a, v) ∧ v ≠ Config.unlistedByte) := by
  induction m with
  | nil =>
    unfold Mem.write at h
    split at h
    · simp at h
    · rename_i hv; exact .inr ⟨by simpa using h, hv⟩
  | cons d m ih =>
    obtain ⟨a', v'⟩ := d
    unfold Mem.write at h
    split_ifs at h with h1 h2 h3 h4
    · exact .inl h
    · rcases List.mem_cons.1 h with h | h
      · exact .inr ⟨h, h2⟩
      · exact .inl h
    · exact .inl (by simp [h])
    · rcases List.mem_cons.1 h with h | h
      · exact .inr ⟨h, h4⟩
      · exact .inl (by simp [h])
    · rcases List.mem_cons.1 h with h | h
      · exact .inl (by simp [h])
      · rcases ih h with h | h
        · exact .inl (by simp [h])
        · exact .inr h

theorem Mem.write_pairwise {m : List Host.Cell} {a : Nat} {v : Byte}
    (h : m.Pairwise (fun c c' => c.1 < c'.1)) :
    (Mem.write m a v).Pairwise (fun c c' => c.1 < c'.1) := by
  induction m with
  | nil => unfold Mem.write; split <;> simp
  | cons d m ih =>
    obtain ⟨a', v'⟩ := d
    obtain ⟨hd, hm⟩ := List.pairwise_cons.1 h
    unfold Mem.write
    split_ifs with h1 h2 h3 h4
    · exact h
    · refine List.pairwise_cons.2 ⟨fun c hc => ?_, h⟩
      rcases List.mem_cons.1 hc with rfl | hc
      · exact h1
      · exact lt_trans h1 (hd c hc)
    · exact hm
    · subst h3; exact List.pairwise_cons.2 ⟨hd, hm⟩
    · refine List.pairwise_cons.2 ⟨fun c hc => ?_, ih hm⟩
      rcases Mem.mem_write hc with hc | ⟨rfl, -⟩
      · exact hd c hc
      · show a' < a; omega

/-- Every memory operation keeps the canonical form. -/
theorem Mem.write_wf {m : List Host.Cell} {a : Nat} {v : Byte} (h : Mem.wf m) (ha : a < Config.bufMax) :
    Mem.wf (Mem.write m a v) := by
  refine ⟨Mem.write_pairwise h.1, fun c hc => ?_⟩
  rcases Mem.mem_write hc with hc | ⟨rfl, hv⟩
  · exact h.2 c hc
  · exact ⟨hv, ha⟩

/-- A read after a write to the same address. -/
theorem Mem.read_write_same {m : List Host.Cell} {a : Nat} {v : Byte}
    (h : m.Pairwise (fun c c' => c.1 < c'.1)) : Mem.read (Mem.write m a v) a = v := by
  induction m with
  | nil => unfold Mem.write; split <;> simp_all [Mem.read]
  | cons d m ih =>
    obtain ⟨a', v'⟩ := d
    obtain ⟨hd, hm⟩ := List.pairwise_cons.1 h
    unfold Mem.write
    split_ifs with h1 h2 h3 h4
    · rw [h2]
      exact Mem.read_eq_unlisted (fun c hc e => by
        rcases List.mem_cons.1 hc with rfl | hc
        · simp at e; omega
        · have := hd c hc; simp at this; omega)
    · simp [Mem.read]
    · rw [h4]
      exact Mem.read_eq_unlisted (fun c hc e => by have := hd c hc; simp at this; omega)
    · simp [Mem.read]
    · simp only [Mem.read, if_neg h3]; exact ih hm

/-- A write leaves every other address alone. -/
theorem Mem.read_write_other (m : List Host.Cell) {a b : Nat} (v : Byte) (hb : b ≠ a) :
    Mem.read (Mem.write m a v) b = Mem.read m b := by
  induction m with
  | nil => unfold Mem.write; split <;> simp [Mem.read, hb]
  | cons d m ih =>
    obtain ⟨a', v'⟩ := d
    unfold Mem.write
    split_ifs with h1 h2 h3 h4
    · rfl
    · simp [Mem.read, hb]
    · subst h3; simp [Mem.read, hb]
    · subst h3; simp [Mem.read, hb]
    · simp only [Mem.read, ih]

@[simp] theorem Mem.readFirst_zero (m : List Host.Cell) : Mem.readFirst m 0 = [] := rfl

@[simp] theorem Mem.readFirst_length (m : List Host.Cell) (n : Nat) : (Mem.readFirst m n).length = n := by
  simp [Mem.readFirst]

theorem Mem.readFirst_succ (m : List Host.Cell) (n : Nat) :
    Mem.readFirst m (n + 1) = Mem.readFirst m n ++ [Mem.read m n] := by
  simp [Mem.readFirst, List.range_succ]

theorem Mem.readFirst_write {m : List Host.Cell} {n : Nat} {v : Byte}
    (h : m.Pairwise (fun c c' => c.1 < c'.1)) :
    Mem.readFirst (Mem.write m n v) (n + 1) = Mem.readFirst m n ++ [v] := by
  rw [Mem.readFirst_succ, Mem.read_write_same h]
  congr 1
  refine List.map_congr_left fun i hi => ?_
  exact Mem.read_write_other m v (by have := List.mem_range.1 hi; omega)

/-- The length register holds every length the buffer can have (R9: `LEN_W` is `ceil(log2(BUF_MAX+1))`). -/
theorem Config.bufMax_lt_two_pow_lenW : Config.bufMax < 2 ^ Config.lenW := by decide

/-- The length after an append, without wrap-around while the buffer has room. -/
theorem Dec.append_len_toNat {d : Dec} {b : Byte} (h : d.len.toNat < Config.bufMax) :
    (d.append b).len.toNat = d.len.toNat + 1 := by
  have hw := Config.bufMax_lt_two_pow_lenW
  rw [Dec.append_len, BitVec.toNat_add, show (1 : LenReg).toNat = 1 from rfl]
  exact Nat.mod_eq_of_lt (by omega)

/-- An append adds its byte at the end of the payload (R51). -/
theorem Dec.append_payload {d : Dec} {b : Byte} (hm : Mem.wf d.buf) (h : d.len.toNat < Config.bufMax) :
    (d.append b).payload = d.payload ++ [b] := by
  unfold Dec.payload
  rw [Dec.append_len_toNat h, Dec.append_buf, Mem.readFirst_write hm.1]

@[simp] theorem Dec.clear_payload (d : Dec) : d.clear.payload = [] := rfl

@[simp] theorem Dec.payload_length (d : Dec) : d.payload.length = d.len.toNat := by simp [Dec.payload]

end Sys2Proof.Machine
end

