-- ==== Sys2Proof/Laws/Decoder.lean ====
section
/-! SUPPORT. The decoder: when R120 selects each transition, and that every selected transition keeps R27. -/

namespace Sys2Proof.Machine

/-- The guard under which R120 selects a transition, with the guards before it false (R123). -/
def Dec.guard (d : Dec) (b : Byte) : Transition → Prop
  | .close => d.inFrame = true ∧ d.cmd = Config.cmdData ∧ b = Config.byteFend
  | .openFrame => ¬(d.inFrame = true ∧ d.cmd = Config.cmdData) ∧ b = Config.byteFend
  | .sel => b ≠ Config.byteFend ∧ d.inFrame = true ∧ d.len.toNat < Config.bufMax ∧ d.len.toNat = 0 ∧
      d.cmd = Config.cmdUnknown
  | .fesc => b = Config.byteFesc ∧ d.inFrame = true ∧ d.len.toNat < Config.bufMax ∧ d.cmd = Config.cmdData
  | .unesc => b ≠ Config.byteFend ∧ b ≠ Config.byteFesc ∧ d.inFrame = true ∧ d.len.toNat < Config.bufMax ∧
      d.cmd = Config.cmdData ∧ d.escapePending = true
  | .plain => b ≠ Config.byteFend ∧ b ≠ Config.byteFesc ∧ d.inFrame = true ∧ d.len.toNat < Config.bufMax ∧
      d.cmd = Config.cmdData ∧ d.escapePending = false
  | .peak => b ≠ Config.byteFend ∧ d.inFrame = true ∧ d.len.toNat < Config.bufMax ∧ d.cmd = Config.cmdAudioPeak
  | .ignore => b ≠ Config.byteFend ∧ d.inFrame = true ∧ d.len.toNat < Config.bufMax ∧
      ¬(d.len.toNat = 0 ∧ d.cmd = Config.cmdUnknown) ∧ d.cmd ≠ Config.cmdData ∧ d.cmd ≠ Config.cmdAudioPeak
  | .dropFull => b ≠ Config.byteFend ∧ d.inFrame = true ∧ ¬ d.len.toNat < Config.bufMax
  | .dropIdle => b ≠ Config.byteFend ∧ d.inFrame = false

/-- R120 selects a transition exactly under its guard. -/
theorem Dec.select_eq_iff (d : Dec) (b : Byte) (t : Transition) : d.select b = t ↔ d.guard b t := by
  have hu : Config.cmdUnknown ≠ Config.cmdData := by decide
  have hu' : Config.cmdData ≠ Config.cmdUnknown := by decide
  have ha : Config.cmdAudioPeak ≠ Config.cmdData := by decide
  have ha' : Config.cmdAudioPeak ≠ Config.cmdUnknown := by decide
  have hf : Config.byteFesc ≠ Config.byteFend := by decide
  have := hu.symm
  have := ha.symm
  have := ha'.symm
  have := hf.symm
  unfold Dec.select selectTransition
  split_ifs <;> cases t <;> simp_all [Dec.guard]

/-- What the selected transition's guard says. -/
theorem Dec.guard_select (d : Dec) (b : Byte) : d.guard b (d.select b) := (d.select_eq_iff b _).1 rfl

/-- RX.CLOSE and RX.PEAK alone emit (R122). -/
theorem Dec.emits_eq_none {d : Dec} {t : Transition} {b : Byte} (h1 : t ≠ .close) (h2 : t ≠ .peak) :
    d.emits t b = none := by cases t <;> simp_all [Dec.emits]

/-- A reset decoder meets R27. -/
theorem Dec.Inv.restart {d : Dec} (h : Mem.wf d.buf) (t : Time) : (d.restart t).Inv where
  memory := h
  lenBound := by simp
  escape := by simp
  nonempty := by simp
  idle := by simp

/-- The timestamp is no part of R27. -/
theorem Dec.Inv.timestamp {d : Dec} (h : d.Inv) (t : Time) : ({ d with lastByteTimestamp := t } : Dec).Inv where
  memory := h.memory
  lenBound := h.lenBound
  escape := h.escape
  nonempty := h.nonempty
  idle := h.idle

/-- Every transition, where R120 selects it, keeps the invariants of R27. -/
theorem Dec.Inv.fire {d : Dec} (h : d.Inv) {b : Byte} {t : Transition} (hg : d.guard b t) : (d.fire t b).Inv := by
  have hm := h.memory
  cases t with
  | close => exact ⟨hm, by simp [Dec.fire], by simp [Dec.fire], by simp [Dec.fire], by simp [Dec.fire]⟩
  | openFrame => exact ⟨hm, by simp [Dec.fire], by simp [Dec.fire], by simp [Dec.fire], by simp [Dec.fire]⟩
  | sel =>
    obtain ⟨-, hi, -, hl, hc⟩ := hg
    have he : d.escapePending = false := by
      cases he : d.escapePending
      · rfl
      · exact absurd ((h.escape he).2.1.symm.trans hc) (by decide)
    exact ⟨hm, h.lenBound, by simp [Dec.fire, he], by simp [Dec.fire, hl], by simp [Dec.fire, hi]⟩
  | fesc =>
    obtain ⟨-, hi, hl, hc⟩ := hg
    exact ⟨hm, h.lenBound, fun _ => ⟨hi, hc, hl⟩, h.nonempty, by simp [Dec.fire, hi]⟩
  | unesc =>
    obtain ⟨-, -, hi, hl, hc, -⟩ := hg
    have hlen := Dec.append_len_toNat (b := unesc b) hl
    exact ⟨Mem.write_wf hm hl, by simp only [Dec.fire, hlen]; omega, by simp [Dec.fire], fun _ => ⟨hi, hc⟩,
      by simp [Dec.fire, hi]⟩
  | plain =>
    obtain ⟨-, -, hi, hl, hc, he⟩ := hg
    have hlen := Dec.append_len_toNat (b := b) hl
    exact ⟨Mem.write_wf hm hl, by simp only [Dec.fire, hlen]; omega, by simp [Dec.fire, he], fun _ => ⟨hi, hc⟩,
      by simp [Dec.fire, hi]⟩
  | peak => exact h
  | ignore => exact h
  | dropFull => exact h
  | dropIdle => exact h

/-- The timeout keeps the invariants of R27. -/
theorem Dec.Inv.timeout {d : Dec} (h : d.Inv) (now : Time) : (d.timeout now).Inv := by
  unfold Dec.timeout
  split
  · exact ⟨h.memory, by simp, by simp, by simp, by simp⟩
  · exact h

end Sys2Proof.Machine
end

