-- ==== Sys2Proof/Laws/Ops.lean ====
section
/-! SUPPORT. One lemma per shared operation that says everything it can do: what its next state is, field by field. -/

namespace Sys2Proof.Machine

@[simp] theorem draw_cons {α : Type} (a : α) (rest : List α) (free : Nat → α) (n : Nat) :
    draw (a :: rest) free n = (a, rest, n) := rfl

/-- `writeError` raises nothing exactly for a count that is the frame's length (R175). -/
theorem writeError_eq_none {frame : List Byte} {setting : Setting} {answer : WriteAnswer} :
    writeError frame setting answer = none ↔ answer = .ok frame.length := by
  cases answer <;> simp [writeError]

/-- Every error `writeError` raises is one of R212 and R213. -/
theorem writeError_some {frame : List Byte} {setting : Setting} {answer : WriteAnswer} {e : SesError}
    (h : writeError frame setting answer = some e) :
    e = .transportIOError ∨ e = .configurationError setting := by
  unfold writeError at h
  split at h
  · exact .inl (Option.some.inj h).symm
  · split at h
    · cases h
    · exact .inr (Option.some.inj h).symm

/-- A callback that answers with a next state has been recorded; it returned, or its error took the session OFFLINE. -/
theorem State.makeCallback_next {c : Callback} {s t : State} (h : s.makeCallback c = .next t) :
    t.dec = s.dec ∧ t.env.rxQueue = s.env.rxQueue ∧ t.env.clock = s.env.clock ∧
    t.out = { s.out with callbacks := s.out.callbacks ++ [c] } ∧
    ((s.drawCallback.1 = .returned ∧ t.ses = s.ses) ∨
     ∃ e, s.drawCallback.1 = .raised e ∧ t.ses = { s.ses with error := e, online := false }) := by
  have ha : (State.drawCallback { s with out := { s.out with callbacks := s.out.callbacks ++ [c] } }).1 =
      s.drawCallback.1 := rfl
  unfold State.makeCallback at h
  dsimp only at h
  split at h
  · next s2 heq =>
    obtain rfl := (Host.Outcome.next.inj h)
    have hs : s2 = (State.drawCallback { s with out := { s.out with callbacks := s.out.callbacks ++ [c] } }).2 := by
      rw [heq]
    rw [heq] at ha
    subst hs
    exact ⟨rfl, rfl, rfl, rfl, .inl ⟨ha.symm, rfl⟩⟩
  · next e s2 heq =>
    obtain rfl := (Host.Outcome.next.inj h)
    have hs : s2 = (State.drawCallback { s with out := { s.out with callbacks := s.out.callbacks ++ [c] } }).2 := by
      rw [heq]
    rw [heq] at ha
    subst hs
    exact ⟨rfl, rfl, rfl, rfl, .inr ⟨e, ha.symm, rfl⟩⟩
  · cases h

/-- A dispatch that answers with a next state has made the emitted frame's callback, if there is one, and nothing else;
the session goes OFFLINE only by the error of a callback made. -/
theorem State.dispatch_next {out : Option Frame} {s t : State} (h : s.dispatch out = .next t) :
    t.dec = s.dec ∧ t.env.rxQueue = s.env.rxQueue ∧ t.env.clock = s.env.clock ∧
    t.out = { s.out with callbacks := s.out.callbacks ++ (out.bind Frame.callback).toList } ∧
    (t.ses = s.ses ∨ ∃ c e, out.bind Frame.callback = some c ∧ s.drawCallback.1 = .raised e ∧
      t.ses = { s.ses with error := e, online := false }) := by
  unfold State.dispatch at h
  split at h
  · next hn => obtain rfl := Host.Outcome.next.inj h; simp [hn]
  · next c hc =>
    obtain ⟨h1, h2, h3, h4, h5⟩ := State.makeCallback_next h
    refine ⟨h1, h2, h3, by simpa [hc] using h4, ?_⟩
    rcases h5 with ⟨-, h5⟩ | ⟨e, h5, h6⟩
    · exact .inl h5
    · exact .inr ⟨c, e, hc, h5, h6⟩

/-- A dispatch of nothing changes nothing. -/
@[simp] theorem State.dispatch_none (s : State) : s.dispatch none = .next s := rfl

/-- A callback whose scripted answer is to return. -/
theorem State.makeCallback_returned {c : Callback} {s : State} {rest : List CallbackAnswer}
    (h : s.env.callbackAnswers = .returned :: rest) :
    s.makeCallback c = .next { s with env := { s.env with callbackAnswers := rest },
                                      out := { s.out with callbacks := s.out.callbacks ++ [c] } } := by
  simp [State.makeCallback, State.drawCallback, h]

/-- A callback whose scripted answer is an error. -/
theorem State.makeCallback_raised {c : Callback} {s : State} {e : SesError} {rest : List CallbackAnswer}
    (h : s.env.callbackAnswers = .raised e :: rest) :
    s.makeCallback c = .next { s with ses := { s.ses with error := e, online := false },
                                      env := { s.env with callbackAnswers := rest },
                                      out := { s.out with callbacks := s.out.callbacks ++ [c] } } := by
  simp [State.makeCallback, State.drawCallback, State.takeError, h]

/-- A callback whose scripted answer is never to return. -/
theorem State.makeCallback_neverReturns {c : Callback} {s : State} {rest : List CallbackAnswer}
    (h : s.env.callbackAnswers = .neverReturns :: rest) : s.makeCallback c = .fault .callbackStuck := by
  simp [State.makeCallback, State.drawCallback, h]

/-- A received byte never raises (R120): it stops only on a buffer length out of range or a callback that never
returns. Its next state is the decoder's step, and the callback of what the step emitted. -/
theorem fireRx_next {t : Transition} {b : Byte} {s s' : State} (h : fireRx t b s = .next s') :
    s'.dec = s.dec.fire t b ∧ s'.env.rxQueue = s.env.rxQueue ∧ s'.env.clock = s.env.clock ∧
    s'.out = { s.out with callbacks := s.out.callbacks ++ ((s.dec.emits t b).bind Frame.callback).toList } ∧
    (s'.ses = s.ses ∨ ∃ c e, (s.dec.emits t b).bind Frame.callback = some c ∧ s.drawCallback.1 = .raised e ∧
      s'.ses = { s.ses with error := e, online := false }) := by
  unfold fireRx at h
  split at h
  · cases h
  · exact State.dispatch_next h

/-- A transition that emits nothing answers with a next state that differs in the decoder alone. -/
theorem fireRx_silent {t : Transition} {b : Byte} {s : State} (h1 : t ≠ .close) (h2 : t ≠ .peak) :
    fireRx t b s = .next { s with dec := s.dec.fire t b } := by
  simp [fireRx, h1, Dec.emits_eq_none h1 h2]

/-- A transition row is its transition where R120 selects it. -/
theorem selectedRx_of_guard {t : Transition} {b : Byte} {s : State} (h : s.dec.guard b t) :
    selectedRx t b s = fireRx t b s := by
  simp [selectedRx, (s.dec.select_eq_iff b t).2 h]

/-- A received byte fires the transition whose guard holds. -/
theorem receiveByte_of_guard {t : Transition} {b : Byte} {s : State} (h : s.dec.guard b t) :
    receiveByte b s = fireRx t b s := by
  simp [receiveByte, (s.dec.select_eq_iff b t).2 h]

/-- Whatever a byte row or a transition row does, it fired a selected transition. -/
theorem selectedRx_next {t : Transition} {b : Byte} {s s' : State} (h : selectedRx t b s = .next s') :
    s.dec.guard b t ∧ fireRx t b s = .next s' := by
  unfold selectedRx at h
  split at h
  · next hs => exact ⟨(s.dec.select_eq_iff b t).1 hs, h⟩
  · cases h

/-- A caller's command that answers with a next state was issued in an online session with the lock free. -/
theorem callerCommand_next {c v : Byte} {setting : Setting} {s t : State}
    (h : callerCommand c v setting s = .next t) :
    s.ses.online = true ∧ s.ses.txLock = false ∧ t = finishCommand (sendFrame c v setting s) := by
  unfold callerCommand Ses.mayCommand at h
  split_ifs at h with h1 h2
  · exact ⟨by simpa using h1, by simpa using h2, (Host.Outcome.next.inj h).symm⟩

/-- The two ends of a caller's command (R176). -/
theorem finishCommand_cases (r : Option SesError × State) :
    (r.1 = none ∧ finishCommand r = { r.2 with out := { r.2.out with result := .ok } }) ∨
    (∃ e, r.1 = some e ∧ finishCommand r = r.2.takeError .callerCommand e) := by
  obtain ⟨_ | e, s⟩ := r
  · exact .inl ⟨rfl, rfl⟩
  · exact .inr ⟨e, rfl, rfl⟩

/-- The two ends of the poll (R198, R199). -/
theorem finishPoll_cases (r : Option SesError × State) :
    (r.1 = none ∧ finishPoll r = r.2) ∨ (∃ e, r.1 = some e ∧ finishPoll r = r.2.takeError .loop e) := by
  obtain ⟨_ | e, s⟩ := r
  · exact .inl ⟨rfl, rfl⟩
  · exact .inr ⟨e, rfl, rfl⟩

/-- A sequence of commands leaves everything alone but the lock, the wire and the environment's answers (R164). -/
theorem sendAll_frame (l : List (Byte × Byte × Setting)) (s : State) :
    (sendAll l s).2.dec = s.dec ∧ (sendAll l s).2.env.rxQueue = s.env.rxQueue ∧
    (sendAll l s).2.env.clock = s.env.clock ∧
    (sendAll l s).2.out.opens = s.out.opens ∧ (sendAll l s).2.out.callbacks = s.out.callbacks ∧
    (sendAll l s).2.out.result = s.out.result ∧
    (sendAll l s).2.ses = { s.ses with txLock := (sendAll l s).2.ses.txLock } ∧
    (s.ses.txLock = false → (sendAll l s).2.ses.txLock = false) := by
  induction l generalizing s with
  | nil => simp [sendAll]
  | cons x l ih =>
    obtain ⟨c, v, setting⟩ := x
    unfold sendAll
    split
    · next s' h =>
      have hs : s' = (sendFrame c v setting s).2 := by rw [h]
      subst hs
      obtain ⟨h1, h2, h3, h4, h5, h6, h7, h8⟩ := ih (sendFrame c v setting s).2
      refine ⟨by simp [h1], by simp [h2], by simp [h3], by simp [h4], by simp [h5], by simp [h6], ?_, fun _ => ?_⟩
      · rw [h7]; rfl
      · exact h8 rfl
    · next e s' h =>
      have hs : s' = (sendFrame c v setting s).2 := by rw [h]
      subst hs
      exact ⟨rfl, rfl, rfl, rfl, rfl, rfl, rfl, fun _ => rfl⟩

/-- Every error of a sequence is one of R212 and R213, never NONE. -/
theorem sendAll_error {l : List (Byte × Byte × Setting)} {s : State} {e : SesError}
    (h : (sendAll l s).1 = some e) : e = .transportIOError ∨ ∃ setting, e = .configurationError setting := by
  induction l generalizing s with
  | nil => simp [sendAll] at h
  | cons x l ih =>
    obtain ⟨c, v, setting⟩ := x
    unfold sendAll at h
    split at h
    · exact ih h
    · next e' s' h' =>
      have he : (sendFrame c v setting s).1 = some e := by rw [h']; exact h
      rcases writeError_some he with h | h
      · exact .inl h
      · exact .inr ⟨setting, h⟩

/-- What a sequence of commands puts on the wire: a beginning of its frames, all of them if none raised (R63, R164). -/
theorem sendAll_wire (l : List (Byte × Byte × Setting)) (s : State) :
    ∃ sent, (sendAll l s).2.out.wire = s.out.wire ++ sent ∧
      sent <+: frameBytes (l.map fun x => (x.1, x.2.1)) ∧
      ((sendAll l s).1 = none → sent = frameBytes (l.map fun x => (x.1, x.2.1))) := by
  induction l generalizing s with
  | nil => exact ⟨[], by simp [sendAll, frameBytes]⟩
  | cons x l ih =>
    obtain ⟨c, v, setting⟩ := x
    unfold sendAll
    split
    · next s' h =>
      have hs : s' = (sendFrame c v setting s).2 := by rw [h]
      have he : writeError (kissEncode c [v]) setting s.drawWrite.1 = none := by
        rw [← sendFrame_error, h]
      have ha := writeError_eq_none.1 he
      obtain ⟨sent, h1, h2, h3⟩ := ih s'
      refine ⟨kissEncode c [v] ++ sent, ?_, ?_, fun hn => ?_⟩
      · rw [h1, hs, sendFrame_out_wire, ha, sentBytes, List.take_length, List.append_assoc]
      · simpa [frameBytes] using h2
      · simp [frameBytes, h3 hn]
    · next e s' h =>
      have hs : s' = (sendFrame c v setting s).2 := by rw [h]
      refine ⟨(kissEncode c [v]).take (sentBytes s.drawWrite.1), ?_, ?_, fun hn => by cases hn⟩
      · rw [hs, sendFrame_out_wire]
      · simp only [frameBytes, List.map_cons, List.flatMap_cons]
        exact (List.take_prefix _ _).trans (List.prefix_append _ _)

/-- Open's three ends: `T.open` failed (R162), the sequence failed (R166), or the loop starts (R165). -/
theorem execOpenSession_next {cfg : SessionConfig} {s t : State} (h : execOpenSession cfg s = .next t) :
    s.ses.mayOpen = true ∧
    ((s.drawOpen.1 = .fail ∧ t = (s.callOpen cfg).2.takeError .openCall .transportOpenError) ∨
     (∃ handle, s.drawOpen.1 = .ok handle ∧ s.ses.txLock = false ∧ t = openWith cfg handle (s.callOpen cfg).2)) := by
  unfold execOpenSession at h
  split at h
  · cases h
  · next hm =>
    refine ⟨by simpa using hm, ?_⟩
    split at h
    · next s1 ho =>
      have hs : s1 = (s.callOpen cfg).2 := by rw [ho]
      subst hs
      exact .inl ⟨by rw [← State.callOpen_answer cfg s, ho], (Host.Outcome.next.inj h).symm⟩
    · next handle s1 ho =>
      have hs : s1 = (s.callOpen cfg).2 := by rw [ho]
      subst hs
      split at h
      · cases h
      · next hl =>
        exact .inr ⟨handle, by rw [← State.callOpen_answer cfg s, ho], by simpa using hl,
          (Host.Outcome.next.inj h).symm⟩

/-- The two ends of Open after a successful `T.open`. -/
theorem openWith_cases (cfg : SessionConfig) (handle : Nat) (s : State) :
    (∃ s2, sendAll (openSequence cfg) (State.pass Config.tSettleMs
        { s with ses := { s.ses with handle := some handle, config := some cfg } }) = (none, s2) ∧
      openWith cfg handle s = s2.startLoop) ∨
    (∃ e s2, sendAll (openSequence cfg) (State.pass Config.tSettleMs
        { s with ses := { s.ses with handle := some handle, config := some cfg } }) = (some e, s2) ∧
      openWith cfg handle s = s2.takeError .openSequence e) := by
  unfold openWith
  dsimp only
  split
  · next s2 h => exact .inl ⟨s2, h, rfl⟩
  · next e s2 h => exact .inr ⟨e, s2, h, rfl⟩

end Sys2Proof.Machine
end

