-- ==== Sys2Proof/Laws/Records.lean ====
section
/-! SUPPORT. The operands of the model's own call records (log 8), at any width: their bytes, and that reading them back
gives the operand and what follows it. -/

namespace Sys2Proof

@[simp] theorem octets_length (n v : Nat) : (octets n v).length = n := by
  induction n with
  | zero => rfl
  | succ n ih => simp [octets, ih]

@[simp] theorem wordBytes_length {width : Nat} (w : BitVec width) : (wordBytes w).length = wordSize width :=
  octets_length _ _

/-- The operands of the calls take at least one byte. -/
theorem wordSize_cfgW_pos : 1 ≤ wordSize Config.cfgW := by decide
theorem wordSize_timeW_pos : 1 ≤ wordSize Config.timeW := by decide

/-- Reading the bytes of a number's low digits appends those digits. -/
theorem takeOctets_octets (n v high : Nat) (rest : List Byte) :
    takeOctets n high (octets n v ++ rest) = some (high * 256 ^ n + v % 256 ^ n, rest) := by
  induction n generalizing high with
  | zero => simp [octets, takeOctets, Nat.mod_one]
  | succ n ih =>
    simp only [octets, List.cons_append, takeOctets, ih, BitVec.toNat_ofNat]
    rw [Nat.pow_succ 256 n, Nat.mod_mul (a := 256 ^ n), show (2 : Nat) ^ 8 = 256 from rfl]
    congr 2
    ring

theorem two_pow_le_wordSize (width : Nat) : 2 ^ width ≤ 256 ^ wordSize width := by
  rw [show (256 : Nat) = 2 ^ 8 from rfl, ← Nat.pow_mul]
  exact Nat.pow_le_pow_right (by decide) (by unfold wordSize; omega)

/-- Reading an operand's bytes gives the operand and leaves what follows. -/
@[simp] theorem takeWord_wordBytes {width : Nat} (w : BitVec width) (rest : List Byte) :
    takeWord width (wordBytes w ++ rest) = some (w, rest) := by
  have h := w.isLt
  simp [takeWord, wordBytes, takeOctets_octets, Nat.mod_eq_of_lt (h.trans_le (two_pow_le_wordSize width)), h]

@[simp] theorem decodeWordRecord_wordBytes {width : Nat} (tag : Byte) (mk : BitVec width → Instr) (w : BitVec width) :
    decodeWordRecord tag mk (wordBytes w) = .ok (mk w) := by
  have h := takeWord_wordBytes w []
  rw [List.append_nil] at h
  simp [decodeWordRecord, h]

end Sys2Proof
end

