-- ==== Sys2Proof/Laws/PerInstr.lean ====
section
/-! SUPPORT. Statements about every instruction as syntax, one lemma per constructor. EncodingLength: the rows that a
received byte is take one byte (spec/30_encoding.md R93), every other instruction takes more, so that the length of a
run of bytes alone tells the two apart (`decode`). -/

namespace Sys2Proof.Laws.EncodingLength

/-- One byte for the received rows, two or more for the others. -/
def Statement (i : Instr) : Prop :=
  if i.isReceived = true then (encode i).length = 1 else 2 ≤ (encode i).length

theorem kissEncode_two_le (c : Byte) (payload : List Byte) : 2 ≤ (kissEncode c payload).length := by
  simp [kissEncode]

theorem encodeMs_two_le (c : Byte) (ms : CfgWord) : 2 ≤ (encodeMs c ms).length := by
  unfold encodeMs; split <;> simp [kissEncode, wordSize_cfgW_pos]

theorem encodeRaw_two_le (c : Byte) (value : CfgWord) : 2 ≤ (encodeRaw c value).length := by
  unfold encodeRaw; split <;> simp [kissEncode, wordSize_cfgW_pos]

theorem fend : Statement (.fend) := rfl
theorem fesc : Statement (.fesc) := rfl
theorem tfend : Statement (.tfend) := rfl
theorem tfesc : Statement (.tfesc) := rfl
theorem data : Statement (.data) := rfl
theorem txdelay : Statement (.txdelay) := rfl
theorem p : Statement (.p) := rfl
theorem slottime : Statement (.slottime) := rfl
theorem txtail : Statement (.txtail) := rfl
theorem fullduplex : Statement (.fullduplex) := rfl
theorem sethardware : Statement (.sethardware) := rfl
theorem ready : Statement (.ready) := rfl
theorem audioPeak : Statement (.audioPeak) := rfl
theorem enDiags : Statement (.enDiags) := rfl
theorem unknown : Statement (.unknown) := rfl
theorem returnCmd : Statement (.returnCmd) := rfl
theorem unassigned (selector : Byte) : Statement (.unassigned selector) := rfl
theorem rxClose : Statement (.rxClose) := rfl
theorem rxOpen : Statement (.rxOpen) := rfl
theorem rxSel (b : Byte) : Statement (.rxSel b) := rfl
theorem rxFesc : Statement (.rxFesc) := rfl
theorem rxUnesc (b : Byte) : Statement (.rxUnesc b) := rfl
theorem rxPlain (b : Byte) : Statement (.rxPlain b) := rfl
theorem rxPeak (b : Byte) : Statement (.rxPeak b) := rfl
theorem rxIgnore (b : Byte) : Statement (.rxIgnore b) := rfl
theorem rxDropFull (b : Byte) : Statement (.rxDropFull b) := rfl
theorem rxDropIdle (b : Byte) : Statement (.rxDropIdle b) := rfl
theorem idleTimeout (now : Time) : Statement (.idleTimeout now) := by simp [Statement, Instr.isReceived, encode, wordSize_timeW_pos]
theorem setPreamble (ms : CfgWord) : Statement (.setPreamble ms) := encodeMs_two_le _ _
theorem setTxTail (ms : CfgWord) : Statement (.setTxTail ms) := encodeMs_two_le _ _
theorem setPersistence (value : CfgWord) : Statement (.setPersistence value) := encodeRaw_two_le _ _
theorem setSlotTime (ms : CfgWord) : Statement (.setSlotTime ms) := encodeMs_two_le _ _
theorem setFlowControl (f : Bool) : Statement (.setFlowControl f) := kissEncode_two_le _ _
theorem enableDiagnostics : Statement (.enableDiagnostics) := kissEncode_two_le _ _
theorem disableDiagnostics : Statement (.disableDiagnostics) := kissEncode_two_le _ _
theorem askForPeak : Statement (.askForPeak) := kissEncode_two_le _ _
theorem openSession (cfg : SessionConfig) : Statement (.openSession cfg) := by
  simp [Statement, Instr.isReceived, encode, putConfig]
  have := wordSize_cfgW_pos
  omega
theorem sendCommand (c v : Byte) (setting : Setting) : Statement (.sendCommand c v setting) := by simp [Statement, Instr.isReceived, encode]
theorem encodeFrame (c : Byte) (payload : List Byte) : Statement (.encodeFrame c payload) := by simp [Statement, Instr.isReceived, encode]

end Sys2Proof.Laws.EncodingLength
end

