-- ==== Sys2Proof/Laws/Step.lean ====
section
/-! SUPPORT. The step: what each turn does, and the one meaning behind the byte rows. -/

namespace Sys2Proof.Machine

/-- A byte row, whatever its value, is the receipt of that byte. -/
theorem exec_decodeByte (b : Byte) (s : State) : exec (decodeByte b) s = receiveByte b s := by
  unfold decodeByte
  by_cases h : b = Config.byteFend
  · rw [if_pos h, h]; rfl
  rw [if_neg h]; clear h
  by_cases h : b = Config.byteFesc
  · rw [if_pos h, h]; rfl
  rw [if_neg h]; clear h
  by_cases h : b = Config.byteTfend
  · rw [if_pos h, h]; rfl
  rw [if_neg h]; clear h
  by_cases h : b = Config.byteTfesc
  · rw [if_pos h, h]; rfl
  rw [if_neg h]; clear h
  by_cases h : b = Config.cmdData
  · rw [if_pos h, h]; rfl
  rw [if_neg h]; clear h
  by_cases h : b = Config.cmdTxdelay
  · rw [if_pos h, h]; rfl
  rw [if_neg h]; clear h
  by_cases h : b = Config.cmdP
  · rw [if_pos h, h]; rfl
  rw [if_neg h]; clear h
  by_cases h : b = Config.cmdSlottime
  · rw [if_pos h, h]; rfl
  rw [if_neg h]; clear h
  by_cases h : b = Config.cmdTxtail
  · rw [if_pos h, h]; rfl
  rw [if_neg h]; clear h
  by_cases h : b = Config.cmdFullduplex
  · rw [if_pos h, h]; rfl
  rw [if_neg h]; clear h
  by_cases h : b = Config.cmdSethardware
  · rw [if_pos h, h]; rfl
  rw [if_neg h]; clear h
  by_cases h : b = Config.cmdReady
  · rw [if_pos h, h]; rfl
  rw [if_neg h]; clear h
  by_cases h : b = Config.cmdAudioPeak
  · rw [if_pos h, h]; rfl
  rw [if_neg h]; clear h
  by_cases h : b = Config.cmdEnDiags
  · rw [if_pos h, h]; rfl
  rw [if_neg h]; clear h
  by_cases h : b = Config.cmdUnknown
  · rw [if_pos h, h]; rfl
  rw [if_neg h]; clear h
  by_cases h : b = Config.cmdReturn
  · rw [if_pos h, h]; rfl
  rw [if_neg h]; clear h
  rfl

/-- A transition row is its transition, where it is selected. -/
theorem exec_toInstr_of_select {b : Byte} {s : State} :
    exec ((s.dec.select b).toInstr b) s = receiveByte b s := by
  have hg := s.dec.guard_select b
  have hr : receiveByte b s = selectedRx (s.dec.select b) b s := by simp [receiveByte, selectedRx]
  rw [hr]
  cases h : s.dec.select b <;> rw [h] at hg
  case close => obtain ⟨-, -, rfl⟩ := hg; rfl
  case openFrame => obtain ⟨-, rfl⟩ := hg; rfl
  case fesc => obtain ⟨rfl, -⟩ := hg; rfl
  all_goals rfl

/-- Everything one iteration of the loop can do when it answers with a next state (R190 to R199). -/
theorem loopIteration_next {s t : State} (h : loopIteration s = .next t) :
    (s.arrive.drawAvail.1 = .fail ∧ t = s.arrive.drawAvail.2.takeError .loop .transportIOError) ∨
    (s.arrive.drawAvail.1 = .ok ∧ ∃ b rest, s.arrive.env.rxQueue = b :: rest ∧
      ((s.arrive.drawAvail.2.drawRead.1 = .fail ∧
          t = s.arrive.drawAvail.2.drawRead.2.takeError .loop .transportIOError) ∨
       (s.arrive.drawAvail.2.drawRead.1 = .ok ∧
          receiveByte b (s.arrive.drawAvail.2.drawRead.2.fetched rest) = .next t))) ∨
    (s.arrive.drawAvail.1 = .ok ∧ s.arrive.env.rxQueue = [] ∧ idleIteration s.arrive.drawAvail.2 = .next t) := by
  unfold loopIteration at h
  split at h
  · next s1 ha =>
    exact .inl ⟨by rw [ha], by rw [ha]; exact (Host.Outcome.next.inj h).symm⟩
  · next s1 ha =>
    obtain rfl : s1 = s.arrive.drawAvail.2 := by rw [ha]
    have hok : s.arrive.drawAvail.1 = .ok := by rw [ha]
    split at h
    · next b rest hq =>
      refine .inr (.inl ⟨hok, b, rest, by simpa using hq, ?_⟩)
      unfold receiveIteration at h
      split at h
      · next s2 hr =>
        obtain rfl : s2 = s.arrive.drawAvail.2.drawRead.2 := by rw [hr]
        exact .inl ⟨by rw [hr], (Host.Outcome.next.inj h).symm⟩
      · next s2 hr =>
        obtain rfl : s2 = s.arrive.drawAvail.2.drawRead.2 := by rw [hr]
        exact .inr ⟨by rw [hr], by rw [← exec_decodeByte]; exact h⟩
    · next hq => exact .inr (.inr ⟨hok, by simpa using hq, h⟩)

/-- An idle iteration that answers with a next state: the timeout, the wait, the poll (R196 to R198). -/
theorem idleIteration_next {s t : State} (h : idleIteration s = .next t) :
    s.ses.txLock = false ∧
    t = finishPoll (sendFrame Config.cmdAudioPeak Config.pollArg .peak
      (State.pass Config.tPollMs { s.now.2 with dec := s.dec.timeout s.now.1 })) := by
  unfold idleIteration at h
  change idlePoll _ = _ at h
  unfold idlePoll at h
  split at h
  · cases h
  · next hl => exact ⟨by simpa using hl, (Host.Outcome.next.inj h).symm⟩

/-- Everything a step can do when it answers with a next state. -/
theorem step_next {s t : State} (h : step s = .next t) :
    (s.drawTurn.1 = .loop ∧ s.ses.online = true ∧ loopIteration s.drawTurn.2 = .next t) ∨
    (s.drawTurn.1 = .loop ∧ s.ses.online = false ∧ s.ses.faulted = false ∧ t = s.drawTurn.2) ∨
    (∃ record i, s.drawTurn.1 = .call record ∧ decode record = .ok i ∧ i.isCallerOp = true ∧
      exec i s.drawTurn.2 = .next t) := by
  unfold step takeTurn at h
  split at h
  · next s1 hd =>
    obtain rfl : s1 = s.drawTurn.2 := by rw [hd]
    have hl : s.drawTurn.1 = .loop := by rw [hd]
    unfold loopTurn at h
    split at h
    · next ho => exact .inl ⟨hl, by simpa using ho, h⟩
    · next ho =>
      split at h
      · cases h
      · next hf =>
        exact .inr (.inl ⟨hl, by simpa using ho, by simpa using hf, (Host.Outcome.next.inj h).symm⟩)
  · next record s1 hd =>
    obtain rfl : s1 = s.drawTurn.2 := by rw [hd]
    unfold callTurn at h
    split at h
    · cases h
    · next i hi =>
      split at h
      · next hc => exact .inr (.inr ⟨record, i, by rw [hd], hi, hc, h⟩)
      · cases h

end Sys2Proof.Machine
end

