-- ==== Sys2Proof/Tests/Slice0.lean ====
section
/-! SUPPORT. Tests: ill-formed terms that the checks refuse, words written out from the spec's encodings, single steps
from the vectors of spec/95_test_vectors.md (V-…), and for every statement with hypotheses a state and operands that
meet them. -/

namespace Sys2Proof.Tests

open Sys2Proof Sys2Proof.Machine

/-! ### Helpers -/

/-- A decoder with a payload assembled byte by byte; the vectors' (fsm, cmd, buffer). -/
def decAt (f : DecFsm) (cmd : Byte) (payload : List Byte) : Dec :=
  (payload.foldl Dec.append { Dec.reset with cmd := cmd }).setFsm f

/-- A decoder with `len` dead zero bytes in the buffer. -/
def decLen (f : DecFsm) (cmd : Byte) (len : LenReg) : Dec := ({ Dec.reset with cmd := cmd, len := len } : Dec).setFsm f

/-- A session configuration: the one of program P3. -/
def cfg : SessionConfig :=
  { preambleMs := 350, txtailMs := 20, persistence := 255, slottimeMs := 20, flowControl := false,
    devicePath := [0x2F], baudRate := [0x38], byteSize := [0x38], parity := [0x4E], stopBits := [0x31] }

/-- A READY session with a decoder, whose environment answers well. -/
def ready (d : Dec) : State :=
  { State.reset with
    dec := d
    ses := { State.reset.ses with config := some cfg, online := true, interfaceReady := true, handle := some 1,
                                  openCalled := true }
    env := { State.reset.env with turns := [.loop], arrivals := [[]], availAnswers := [.ok], readAnswers := [.ok],
                                  writeAnswers := [.ok 4], elapsed := [0, 0], callbackAnswers := [.returned] } }

/-- A session before Open, whose transport accepts the five frames of `cfg`. -/
def closed : State :=
  { State.reset with
    env := { State.reset.env with openAnswers := [.ok 1], elapsed := [0, 0],
                                  writeAnswers := [.ok 4, .ok 4, .ok 4, .ok 4, .ok 4] } }

/-- The state after, if there is one. -/
def after (o : Host.Outcome State Fault Refusal) : Option State :=
  match o with
  | .next s => some s
  | .fault _ => none
  | .refused _ => none

/-- The decoder after: state, command, payload. -/
def decView (o : Host.Outcome State Fault Refusal) : Option (Option DecFsm × Byte × List Byte) :=
  (after o).map fun s => (s.dec.fsm, s.dec.cmd, s.dec.payload)

/-- Wire, result and last error after. -/
def sesView (o : Host.Outcome State Fault Refusal) : Option (List Byte × CallResult × SesError) :=
  (after o).map fun s => (s.out.wire, s.out.result, s.ses.error)

def callsView (o : Host.Outcome State Fault Refusal) : Option (List Callback) := (after o).map fun s => s.out.callbacks

/-! ### WellFormed: an ill-formed term for each check -/

theorem test_wf_unassigned_named : (Instr.unassigned 0x12).wf = false := by decide
theorem test_wf_unassigned_special : (Instr.unassigned 0xDC).wf = false := by decide
theorem test_wf_unassigned_other : (Instr.unassigned 0x07).wf = true := by decide
theorem test_wf_rxSel : (Instr.rxSel 0xC0).wf = false := by decide
theorem test_wf_rxUnesc_fend : (Instr.rxUnesc 0xC0).wf = false := by decide
theorem test_wf_rxUnesc_fesc : (Instr.rxUnesc 0xDB).wf = false := by decide
theorem test_wf_rxPlain_fend : (Instr.rxPlain 0xC0).wf = false := by decide
theorem test_wf_rxPlain_fesc : (Instr.rxPlain 0xDB).wf = false := by decide
theorem test_wf_rxPeak : (Instr.rxPeak 0xC0).wf = false := by decide
theorem test_wf_rxIgnore : (Instr.rxIgnore 0xC0).wf = false := by decide
theorem test_wf_rxDropFull : (Instr.rxDropFull 0xC0).wf = false := by decide
theorem test_wf_rxDropIdle : (Instr.rxDropIdle 0xC0).wf = false := by decide

/-! ### Decoding: words written out from the tables of spec/30_encoding.md R72, R75, R76, R93 -/

theorem test_decode_special :
    [[0b11000000], [0b11011011], [0b11011100], [0b11011101]].map decode =
      [.ok .fend, .ok .fesc, .ok .tfend, .ok .tfesc] := by decide
theorem test_decode_cmd :
    [[0b00000000], [0b00000001], [0b00000010], [0b00000011], [0b00000100], [0b00000101]].map decode =
      [.ok .data, .ok .txdelay, .ok .p, .ok .slottime, .ok .txtail, .ok .fullduplex] := by decide
theorem test_decode_cmd_high :
    [[0b00000110], [0b00001111], [0b00010010], [0b00010011], [0b11111110], [0b11111111]].map decode =
      [.ok .sethardware, .ok .ready, .ok .audioPeak, .ok .enDiags, .ok .unknown, .ok .returnCmd] := by decide
theorem test_decode_unassigned :
    [[0b00000111], [0b00001110], [0b00010000], [0b11111101]].map decode =
      [.ok (.unassigned 0x07), .ok (.unassigned 0x0E), .ok (.unassigned 0x10), .ok (.unassigned 0xFD)] := by decide
/-- The transition rows: byte and guard (R123), from the states of V-Q15, V-Q1, V-Q5, V-Q10, V-Q11. -/
theorem test_decode_rx_data_frame :
    decodeRx true true 0x00 1 0xC0 = .rxClose ∧ decodeRx false false 0xFE 0 0xC0 = .rxOpen ∧
    decodeRx true false 0xFE 0 0x00 = .rxSel 0x00 ∧ decodeRx true false 0x00 1 0xDB = .rxFesc ∧
    decodeRx true true 0x00 1 0xDC = .rxUnesc 0xDC := by decide
/-- V-Q9, V-Q21, V-Q24, V-Q19, V-Q4. -/
theorem test_decode_rx_other :
    decodeRx true false 0x00 0 0x41 = .rxPlain 0x41 ∧ decodeRx true false 0x12 0 0xF6 = .rxPeak 0xF6 ∧
    decodeRx true false 0x07 0 0x41 = .rxIgnore 0x41 ∧ decodeRx true false 0x00 611 0xDB = .rxDropFull 0xDB ∧
    decodeRx false false 0xFE 0 0xDB = .rxDropIdle 0xDB := by decide
/-- The frames of V-E9 and V-E18 (R76). -/
theorem test_decode_hostop_value :
    [[0xC0, 0x01, 0x0C, 0xC0], [0xC0, 0x04, 0x02, 0xC0], [0xC0, 0x02, 0xFF, 0xC0], [0xC0, 0x03, 0x02, 0xC0]].map decode =
      [.ok (.setPreamble 120), .ok (.setTxTail 20), .ok (.setPersistence 255), .ok (.setSlotTime 20)] := by decide
/-- The frames of V-E11 to V-E13 (R77, R83). -/
theorem test_decode_hostop_fixed :
    [[0xC0, 0x0F, 0x01, 0xC0], [0xC0, 0x0F, 0x00, 0xC0], [0xC0, 0x13, 0x01, 0xC0], [0xC0, 0x13, 0x00, 0xC0],
     [0xC0, 0x12, 0x01, 0xC0]].map decode =
      [.ok (.setFlowControl true), .ok (.setFlowControl false), .ok .enableDiagnostics, .ok .disableDiagnostics,
       .ok .askForPeak] := by decide
/-- The five-byte forms of V-E7 and V-E8 (R76). -/
theorem test_decode_hostop_escaped :
    [[0xC0, 0x01, 0xDB, 0xDC, 0xC0], [0xC0, 0x03, 0xDB, 0xDD, 0xC0]].map decode =
      [.ok (.setPreamble 1920), .ok (.setSlotTime 2190)] := by decide
/-- Operands at the ends of the frame's range and past it (R81, R82): 2550 and 255 have a frame, 2551, 2560 and 256 none. -/
theorem test_encode_range :
    encode (.setTxTail 2550) = [0xC0, 0x04, 0xFF, 0xC0] ∧ encode (.setPersistence 255) = [0xC0, 0x02, 0xFF, 0xC0] ∧
    encode (.setTxTail 2551) = [0x04, 0x00, 0x00, 0x09, 0xF7] ∧ encode (.setTxTail 2560) = [0x04, 0x00, 0x00, 0x0A, 0x00] ∧
    encode (.setPersistence 256) = [0x02, 0x00, 0x00, 0x01, 0x00] := by decide
/-- A frame no operation sends, a value no boolean command has, an unescaped value (R179, R83, R76). -/
theorem test_decode_refuses :
    [[0xC0, 0x05, 0x00, 0xC0], [0xC0, 0x0F, 0x02, 0xC0], [0xC0, 0x01, 0xC0, 0xC0], [], [0x77, 0x00]].map decode =
      [.error (.noHostOperation 0x05), .error (.reservedValue 0x0F 0x02), .error .malformedFrame,
       .error .emptyRecord, .error (.unknownTag 0x77)] := by decide
/-- The model's own records (log 8): SendCommand, Encode, IDLE.TIMEOUT, an operand no frame determines. -/
theorem test_decode_records :
    [[0x81, 0x01, 0x0C, 0x00], [0x82, 0x00, 0x41], [0x83, 0x00, 0x00, 0x00, 0x67], [0x01, 0xFF, 0xFF, 0xFF, 0xFB]].map
        decode =
      [.ok (.sendCommand 0x01 0x0C .preamble), .ok (.encodeFrame 0x00 [0x41]), .ok (.idleTimeout 103),
       .ok (.setPreamble (BitVec.ofInt Config.cfgW (-5)))] := by decide
/-- An operand whose width is no whole number of bytes: most significant byte first, the bits above the width zero. -/
theorem test_record_word :
    wordBytes (0xABC : BitVec 12) = [0x0A, 0xBC] ∧ takeWord 12 [0x0A, 0xBC, 0x77] = some (0xABC, [0x77]) ∧
      takeWord 12 [0x1A, 0xBC] = none ∧ takeWord 12 [0x0A] = none := by decide
theorem test_decode_open : decode (encode (.openSession cfg)) = .ok (.openSession cfg) := by decide

/-! ### Received bytes: V-Q of spec/95_test_vectors.md 2.3 -/

/-- V-Q1. -/
theorem test_fend_opens : decView (exec .fend State.reset) = some (some .inFrame, 0xFE, []) := by decide
/-- V-Q16. -/
theorem test_fend_closes :
    callsView (exec .fend (ready (decAt .inFrame 0x00 [0x41, 0xC0, 0x42]))) =
      some [.onDataFrame [0x41, 0xC0, 0x42]] := by decide
/-- V-Q15: the escape pending at the close is dropped. -/
theorem test_rxClose :
    decView (exec .rxClose (ready (decAt .escaped 0x00 [0x41]))) = some (some .idle, 0x00, []) := by decide
/-- V-Q23. -/
theorem test_rxOpen :
    decView (exec .rxOpen (ready (decAt .inFrame 0x12 []))) = some (some .inFrame, 0xFE, []) := by decide
/-- V-Q6. -/
theorem test_rxSel :
    decView (exec (.rxSel 0x12) (ready (decAt .inFrame 0xFE []))) = some (some .inFrame, 0x12, []) := by decide
/-- V-Q10 and V-Q14. -/
theorem test_fesc_escapes :
    decView (exec .fesc (ready (decAt .inFrame 0x00 [0x41]))) = some (some .escaped, 0x00, [0x41]) ∧
    decView (exec .rxFesc (ready (decAt .escaped 0x00 [0x41]))) = some (some .escaped, 0x00, [0x41]) := by decide
/-- V-Q19: no escape begins with the buffer full. -/
theorem test_fesc_dropped_when_full :
    (after (exec .fesc (ready (decLen .inFrame 0x00 611)))).map (·.dec) = some (decLen .inFrame 0x00 611) := by decide
/-- V-Q11. -/
theorem test_tfend_escaped :
    decView (exec .tfend (ready (decAt .escaped 0x00 [0x41]))) = some (some .inFrame, 0x00, [0x41, 0xC0]) := by decide
/-- V-Q12. -/
theorem test_tfesc_escaped :
    decView (exec .tfesc (ready (decAt .escaped 0x00 [0x41]))) = some (some .inFrame, 0x00, [0x41, 0xDB]) := by decide
/-- V-Q27. -/
theorem test_tfend_plain :
    decView (exec .tfend (ready (decAt .inFrame 0x00 [0xDC]))) = some (some .inFrame, 0x00, [0xDC, 0xDC]) := by decide
/-- V-Q13: a malformed escape. -/
theorem test_rxUnesc :
    decView (exec (.rxUnesc 0x55) (ready (decAt .escaped 0x00 [0x41]))) = some (some .inFrame, 0x00, [0x41, 0x55]) := by
  decide
/-- V-Q28: an escape completes into the last slot. -/
theorem test_rxUnesc_last_slot :
    (after (exec (.rxUnesc 0xDC) (ready (decLen .escaped 0x00 610)))).map
        (fun s => (s.dec.len.toNat, Mem.read s.dec.buf 610, s.dec.fsm)) = some (611, 0xC0, some .inFrame) := by decide
/-- V-Q9. -/
theorem test_rxPlain :
    decView (exec (.rxPlain 0x41) (ready (decAt .inFrame 0x00 []))) = some (some .inFrame, 0x00, [0x41]) := by decide
/-- V-Q5, and DATA as a payload byte of a DATA frame (R123). -/
theorem test_data :
    decView (exec .data (ready (decAt .inFrame 0xFE []))) = some (some .inFrame, 0x00, []) ∧
    decView (exec .data (ready (decAt .inFrame 0x00 []))) = some (some .inFrame, 0x00, [0x00]) := by decide
/-- V-D31, selector position of each: R143 to R149, R151, R153. -/
theorem test_selectors :
    [exec .txdelay (ready (decAt .inFrame 0xFE [])), exec .p (ready (decAt .inFrame 0xFE [])),
     exec .slottime (ready (decAt .inFrame 0xFE [])), exec .txtail (ready (decAt .inFrame 0xFE [])),
     exec .fullduplex (ready (decAt .inFrame 0xFE [])), exec .sethardware (ready (decAt .inFrame 0xFE [])),
     exec .ready (ready (decAt .inFrame 0xFE [])), exec .audioPeak (ready (decAt .inFrame 0xFE [])),
     exec .enDiags (ready (decAt .inFrame 0xFE [])), exec .unknown (ready (decAt .inFrame 0xFE [])),
     exec .returnCmd (ready (decAt .inFrame 0xFE [])), exec (.unassigned 0x07) (ready (decAt .inFrame 0xFE []))].map
        (fun o => (after o).map (·.dec.cmd)) =
      [some 0x01, some 0x02, some 0x03, some 0x04, some 0x05, some 0x06, some 0x0F, some 0x12, some 0x13, some 0xFE,
       some 0xFF, some 0x07] := by decide
/-- V-L4 and V-L5: signed readings. -/
theorem test_rxPeak :
    callsView (exec (.rxPeak 0xF6) (ready (decAt .inFrame 0x12 []))) = some [.onPeakValue (-10)] ∧
    callsView (exec (.rxPeak 0x80) (ready (decAt .inFrame 0x12 []))) = some [.onPeakValue (-128)] := by decide
/-- V-Q24, V-Q25. -/
theorem test_rxIgnore :
    exec (.rxIgnore 0x41) (ready (decAt .inFrame 0x07 [])) = .next (ready (decAt .inFrame 0x07 [])) := rfl
/-- V-Q18. -/
theorem test_rxDropFull :
    exec (.rxDropFull 0x55) (ready (decLen .inFrame 0x00 611)) = .next (ready (decLen .inFrame 0x00 611)) := rfl
/-- V-Q3. -/
theorem test_rxDropIdle : exec (.rxDropIdle 0x41) State.reset = .next State.reset := rfl
/-- A transition that R120 does not select. -/
theorem test_rxClose_refused : exec .rxClose State.reset = .refused (.transitionNotSelected .close) := rfl
/-- V-Q20's length is the last the buffer holds (R50). -/
theorem test_close_over_length :
    exec .fend (ready (decLen .inFrame 0x00 612)) = .fault .bufferAddress := rfl

/-! ### Timeout: V-T of 2.4 -/

/-- V-T1 and V-T2: strict. -/
theorem test_timeout_strict :
    decView (exec (.idleTimeout 102) (ready { decAt .inFrame 0x00 [0x41] with lastByteTimestamp := 2 })) =
      some (some .inFrame, 0x00, [0x41]) ∧
    decView (exec (.idleTimeout 103) (ready { decAt .inFrame 0x00 [0x41] with lastByteTimestamp := 2 })) =
      some (some .idle, 0xFE, []) := by decide
/-- V-T10 and V-T11: the counter wraps. -/
theorem test_timeout_wraps :
    decView (exec (.idleTimeout 0x60) (ready { decAt .inFrame 0x00 [0x41] with lastByteTimestamp := 0xFFFFFFF0 })) =
      some (some .idle, 0xFE, []) ∧
    decView (exec (.idleTimeout 0x54) (ready { decAt .inFrame 0x00 [0x41] with lastByteTimestamp := 0xFFFFFFF0 })) =
      some (some .inFrame, 0x00, [0x41]) := by decide

/-! ### Values: V-K of 2.5 -/

/-- V-K1 to V-K10. -/
theorem test_ticks :
    [3000, -5, 120, 9, 10, 129, 2549, 2560, -11, 1920, 2199, 2147483647, -2147483648].map ticks =
      [255, 0, 12, 0, 1, 12, 254, 255, 0, 192, 219, 255, 0] := by decide
/-- V-K11, V-K12. -/
theorem test_raw : [0, 255, 256, 300, -1, 192, 219].map raw = [0, 255, 255, 255, 0, 192, 219] := by decide
/-- V-K13. -/
theorem test_sext8 : [0xF6, 0x7F, 0x80, 0x00, 0xFF, 0xDB].map sext8 = [-10, 127, -128, 0, -1, -37] := by decide

/-! ### Encoder: V-E of 2.1 -/

/-- V-E5 and V-E6. -/
theorem test_encode_escapes :
    kissEncode 0x00 [0xC0, 0xDB, 0xDC, 0xDD] = [0xC0, 0x00, 0xDB, 0xDC, 0xDB, 0xDD, 0xDC, 0xDD, 0xC0] ∧
    kissEncode 0x00 [0xDB, 0xDC] = [0xC0, 0x00, 0xDB, 0xDD, 0xDC, 0xC0] := by decide
/-- V-E17: the command byte is not escaped. -/
theorem test_encodeFrame :
    sesView (exec (.encodeFrame 0xC0 [0x41]) State.reset) = some ([], .bytes [0xC0, 0xC0, 0x41, 0xC0], .none) := by decide

/-! ### Session commands: frames of 2.1, outcomes of 2.7 -/

theorem test_setPreamble :
    sesView (exec (.setPreamble 120) (ready Dec.reset)) = some ([0xC0, 0x01, 0x0C, 0xC0], .ok, .none) := by decide
/-- P4 part b, step 2: four of five bytes. -/
theorem test_setPreamble_short :
    sesView (exec (.setPreamble 1920) (ready Dec.reset)) =
      some ([0xC0, 0x01, 0xDB, 0xDC], .raised (.configurationError .preamble), .configurationError .preamble) := by decide
theorem test_setTxTail :
    sesView (exec (.setTxTail 20) (ready Dec.reset)) = some ([0xC0, 0x04, 0x02, 0xC0], .ok, .none) := by decide
theorem test_setPersistence :
    sesView (exec (.setPersistence 300) (ready Dec.reset)) = some ([0xC0, 0x02, 0xFF, 0xC0], .ok, .none) := by decide
/-- P5's frame. -/
theorem test_setSlotTime :
    sesView (exec (.setSlotTime 100) (ready Dec.reset)) = some ([0xC0, 0x03, 0x0A, 0xC0], .ok, .none) := by decide
/-- V-X5. -/
theorem test_setSlotTime_fail :
    (after (exec (.setSlotTime 20) { ready Dec.reset with
      env := { (ready Dec.reset).env with writeAnswers := [.fail 0] } })).map
        (fun s => (s.out.wire, s.ses.error, s.ses.online)) = some ([], .transportIOError, true) := by decide
theorem test_setFlowControl :
    sesView (exec (.setFlowControl true) (ready Dec.reset)) = some ([0xC0, 0x0F, 0x01, 0xC0], .ok, .none) ∧
    sesView (exec (.setFlowControl false) (ready Dec.reset)) = some ([0xC0, 0x0F, 0x00, 0xC0], .ok, .none) := by decide
theorem test_enableDiagnostics :
    sesView (exec .enableDiagnostics (ready Dec.reset)) = some ([0xC0, 0x13, 0x01, 0xC0], .ok, .none) := by decide
theorem test_disableDiagnostics :
    sesView (exec .disableDiagnostics (ready Dec.reset)) = some ([0xC0, 0x13, 0x00, 0xC0], .ok, .none) := by decide
theorem test_askForPeak :
    sesView (exec .askForPeak (ready Dec.reset)) = some ([0xC0, 0x12, 0x01, 0xC0], .ok, .none) := by decide
/-- V-X13. -/
theorem test_askForPeak_refused : exec .askForPeak State.reset = .refused .commandNotReady := rfl
/-- V-X14: a count over the frame's length. -/
theorem test_sendCommand_over :
    sesView (exec (.sendCommand 0x02 0x3F .persistence) { ready Dec.reset with
      env := { (ready Dec.reset).env with writeAnswers := [.ok 5] } }) =
      some ([0xC0, 0x02, 0x3F, 0xC0], .raised (.configurationError .persistence),
        .configurationError .persistence) := by decide
/-- P3, Open: the five frames. -/
theorem test_open :
    (after (exec (.openSession cfg) closed)).map (fun s => (s.out.wire, s.ses.fsm)) =
      some ([0xC0, 0x01, 0x23, 0xC0, 0xC0, 0x04, 0x02, 0xC0, 0xC0, 0x02, 0xFF, 0xC0, 0xC0, 0x03, 0x02, 0xC0,
             0xC0, 0x0F, 0x00, 0xC0], some .ready) := by decide
/-- P4 part a, V-X10: the third write is short; ten bytes on the wire. -/
theorem test_open_short :
    (after (exec (.openSession cfg) { closed with
      env := { closed.env with writeAnswers := [.ok 4, .ok 4, .ok 2] } })).map
        (fun s => (s.out.wire, s.ses.fsm, s.ses.error)) =
      some ([0xC0, 0x01, 0x23, 0xC0, 0xC0, 0x04, 0x02, 0xC0, 0xC0, 0x02], some .closed,
        .configurationError .persistence) := by decide

/-! ### Steps: V-L of 2.8 -/

/-- V-L2: an idle iteration polls and 80 ms pass. -/
theorem test_step_idle :
    (after (step (ready Dec.reset))).map (fun s => (s.out.wire, s.env.clock)) =
      some ([0xC0, 0x12, 0x01, 0xC0], 80) := by decide
/-- V-L1, the first of three: one byte read, no poll. -/
theorem test_step_receive :
    (after (step { ready Dec.reset with
      env := { (ready Dec.reset).env with rxQueue := [0xC0, 0x00, 0x41] } })).map
        (fun s => (s.dec.fsm, s.env.rxQueue, s.out.wire)) = some (some .inFrame, [0x00, 0x41], []) := by decide
/-- V-X9: a failing read. -/
theorem test_step_read_fails :
    (after (step { ready (decAt .inFrame 0x00 [0x41]) with
      env := { (ready Dec.reset).env with rxQueue := [0x42], readAnswers := [.fail] } })).map
        (fun s => (s.ses.fsm, s.dec.payload, s.env.rxQueue)) = some (some .offline, [0x41], [0x42]) := by decide
/-- V-X6: a short poll. -/
theorem test_step_short_poll :
    (after (step { ready Dec.reset with
      env := { (ready Dec.reset).env with writeAnswers := [.ok 2] } })).map (fun s => (s.ses.fsm, s.ses.error)) =
      some (some .offline, .configurationError .peak) := by decide
/-- P5, the caller's turn: the frame of setSlotTime(100). -/
theorem test_step_call :
    (after (step { ready Dec.reset with
      env := { (ready Dec.reset).env with turns := [.call [0xC0, 0x03, 0x0A, 0xC0]] } })).map (fun s => s.out.wire) =
      some [0xC0, 0x03, 0x0A, 0xC0] := by decide
/-- S4 through the decoder alone, one byte at a time (P1). -/
theorem test_feed_p1 :
    (State.reset.dec.feed [0xC0, 0x00, 0x41, 0xDB, 0xDC, 0x42, 0xC0]).2 = [⟨0x00, [0x41, 0xC0, 0x42]⟩] := by decide
/-- V-D10: the dangling escape is not carried over. -/
theorem test_feed_vd10 :
    (State.reset.dec.feed [0xC0, 0x00, 0x41, 0xDB, 0xC0, 0xC0, 0x00, 0xDC, 0xC0]).2 =
      [⟨0x00, [0x41]⟩, ⟨0x00, [0xDC]⟩] := by decide
/-- The table's words, placed and fetched from reset (log 9). -/
theorem test_withFetchWord :
    decView (step (State.reset.withFetchWord 8 0xC0)) = some (some .inFrame, 0xFE, []) := by decide

/-! ### Witnesses: for every statement with hypotheses, a state and operands that meet them together -/

/-- A decoder at the last length with room, and one that is full. -/
def room : Dec := decLen .inFrame 0x00 610
def full : Dec := decLen .inFrame 0x00 611

/-- `ready`, with a queue. -/
def readyQ (d : Dec) (q : List Byte) : State :=
  { ready d with env := { (ready d).env with rxQueue := q } }

/-- `ready`, with the transport's answers to the next writes. -/
def answering (writes : List WriteAnswer) : State :=
  { ready Dec.reset with env := { (ready Dec.reset).env with writeAnswers := writes } }

/-- `closed`, with the transport's answers to the frames of Open, and with a transport that does not open. -/
def opening (writes : List WriteAnswer) : State :=
  { closed with env := { closed.env with writeAnswers := writes } }
def refusing : State := { closed with env := { closed.env with openAnswers := [.fail] } }

/-- A state at OFFLINE, its loop moving next. -/
def offline : State := { ready Dec.reset with ses := { (ready Dec.reset).ses with online := false } }

theorem witness_StepKeepsTheInvariant :
    (readyQ full [0xC0]).Inv ∧ ∃ t, step (readyQ full [0xC0]) = .next t :=
  ⟨⟨⟨by decide, by decide, by decide, by decide, by decide⟩, ⟨by decide, by decide, by decide, by decide⟩⟩, _, rfl⟩
theorem witness_DecodeStepFollowsThePriorityOrder_full :
    full.inFrame = true ∧ ¬ full.len.toNat < Config.bufMax ∧ (full.step 0xDB).1 = full := by decide
theorem witness_UnselectedRowIsRefused :
    rxByteOk .close 0xC0 = true ∧ State.reset.dec.select 0xC0 ≠ .close := by decide
theorem witness_CloseDeliversThePayload :
    (ready full).dec.inFrame = true ∧ (ready full).dec.cmd = 0x00 ∧ (ready full).dec.len.toNat ≤ Config.bufMax ∧
    (ready full).env.callbackAnswers = [.returned] := by decide
theorem witness_OpenRestartsTheFrame :
    ¬(State.reset.dec.inFrame = true ∧ State.reset.dec.cmd = 0x00) ∧
    ¬((decAt .inFrame 0x12 []).inFrame = true ∧ (decAt .inFrame 0x12 []).cmd = 0x00) := by decide
theorem witness_SelectorByteBecomesTheCommand :
    (decAt .inFrame 0xFE []).inFrame = true ∧ (decAt .inFrame 0xFE []).len.toNat = 0 ∧
    (decAt .inFrame 0xFE []).cmd = 0xFE ∧ isUnassigned 0xFD = true := by decide
theorem witness_EscapeByteBeginsAnEscape :
    room.inFrame = true ∧ room.len.toNat < Config.bufMax ∧ room.cmd = 0x00 := by decide
theorem witness_EscapedByteIsTranslatedAndAppended :
    (0x41 : Byte) ≠ 0xC0 ∧ (0x41 : Byte) ≠ 0xDB ∧ (decLen .escaped 0x00 610).inFrame = true ∧
    (decLen .escaped 0x00 610).len.toNat < Config.bufMax ∧ (decLen .escaped 0x00 610).cmd = 0x00 ∧
    (decLen .escaped 0x00 610).escapePending = true ∧ (0x41 : Byte) ≠ 0xDC ∧ (0x41 : Byte) ≠ 0xDD := by decide
theorem witness_PlainByteIsAppended :
    (0xDC : Byte) ≠ 0xC0 ∧ (0xDC : Byte) ≠ 0xDB ∧ room.inFrame = true ∧ room.len.toNat < Config.bufMax ∧
    room.cmd = 0x00 ∧ room.escapePending = false := by decide
theorem witness_PeakByteIsReported :
    (0x80 : Byte) ≠ 0xC0 ∧ (ready (decAt .inFrame 0x12 [])).dec.inFrame = true ∧
    (ready (decAt .inFrame 0x12 [])).dec.len.toNat < Config.bufMax ∧ (ready (decAt .inFrame 0x12 [])).dec.cmd = 0x12 ∧
    (ready (decAt .inFrame 0x12 [])).env.callbackAnswers = [.returned] := by decide
theorem witness_OtherCommandsIgnoreTheirBytes :
    (0xDB : Byte) ≠ 0xC0 ∧ (decAt .inFrame 0x01 []).inFrame = true ∧ (decAt .inFrame 0x01 []).len.toNat < Config.bufMax ∧
    ¬((decAt .inFrame 0x01 []).len.toNat = 0 ∧ (decAt .inFrame 0x01 []).cmd = 0xFE) ∧
    (decAt .inFrame 0x01 []).cmd ≠ 0x00 ∧ (decAt .inFrame 0x01 []).cmd ≠ 0x12 := by decide
theorem witness_ByteIsDroppedWhenFullOrOutside :
    (0xDB : Byte) ≠ 0xC0 ∧ full.inFrame = true ∧ full.len.toNat = Config.bufMax ∧ Dec.reset.inFrame = false := by decide
theorem witness_DelimiterEmptiesAndOnlyDataGrows :
    (full.step 0xC0).1.len.toNat = 0 ∧ room.len.toNat < (room.step 0x41).1.len.toNat := by decide
theorem witness_EmittedFramesAreBounded_data :
    (decAt .inFrame 0x00 [0x41]).Inv ∧ ((decAt .inFrame 0x00 [0x41]).step 0xC0).2 = some ⟨0x00, [0x41]⟩ :=
  ⟨⟨by decide, by decide, by decide, by decide, by decide⟩, by decide⟩
theorem witness_EmittedFramesAreBounded_peak :
    (decAt .inFrame 0x12 []).Inv ∧ ((decAt .inFrame 0x12 []).step 0xF6).2 = some ⟨0x12, [0xF6]⟩ :=
  ⟨⟨by decide, by decide, by decide, by decide, by decide⟩, by decide⟩
/-- V-D24's payload, and V-D11's decoder. -/
theorem witness_DataFrameRoundTrip :
    Mem.wf Dec.reset.buf ∧ (List.replicate 611 (0xC0 : Byte)).length ≤ Config.bufMax ∧
    ¬(Dec.reset.inFrame = true ∧ Dec.reset.cmd = 0x00) ∧ Mem.wf (decAt .inFrame 0x00 [0x41]).buf ∧
    (decAt .inFrame 0x00 [0x41]).inFrame = true ∧ (decAt .inFrame 0x00 [0x41]).cmd = 0x00 :=
  ⟨by decide, by rw [List.length_replicate]; decide, by decide, by decide, by decide, by decide⟩
/-- V-D25's payload, an escape into the last slot and a byte after it; V-D22's, none reserved. -/
theorem witness_OversizeFrameIsTruncated :
    Mem.wf Dec.reset.buf ∧ Config.bufMax ≤ (List.replicate 610 (0x11 : Byte) ++ [0xC0, 0x22]).length ∧
    ¬(Dec.reset.inFrame = true ∧ Dec.reset.cmd = 0x00) ∧ Config.bufMax ≤ (List.replicate 612 (0x11 : Byte)).length ∧
    ∀ b ∈ List.replicate 612 (0x11 : Byte), b ≠ 0xC0 ∧ b ≠ 0xDB :=
  ⟨by decide, by rw [List.length_append, List.length_replicate]; decide, by decide,
    by rw [List.length_replicate]; decide, fun b h => by rw [List.eq_of_mem_replicate h]; decide⟩
/-- V-D26's payload: the buffer is full before the escaped pair. -/
theorem witness_OversizeFrameIsTruncated_boundary :
    Config.bufMax ≤ (List.replicate 611 (0x11 : Byte) ++ [0xC0]).length ∧
    Config.bufMax ≤ (List.replicate 611 (0xC0 : Byte)).length :=
  ⟨by rw [List.length_append, List.length_replicate]; decide, by rw [List.length_replicate]; decide⟩
theorem witness_OtherFramesDoNotRoundTrip :
    ¬(Dec.reset.inFrame = true ∧ Dec.reset.cmd = 0x00) ∧ (0x01 : Byte) ≠ 0xC0 ∧ (0x01 : Byte) ≠ 0xFE ∧
    (0x01 : Byte) ≠ 0x00 ∧ (0x01 : Byte) ≠ 0x12 := by decide
theorem witness_UnknownSelectorIsTransparent : ¬(Dec.reset.inFrame = true ∧ Dec.reset.cmd = 0x00) := by decide
theorem witness_SharedDelimiterLosesTheFrame :
    (decAt .inFrame 0x00 [0x41]).inFrame = true ∧ (decAt .inFrame 0x00 [0x41]).cmd = 0x00 ∧
    ∀ b ∈ ([0x00, 0x42] : List Byte), b ≠ 0xC0 := by decide
theorem witness_AppendExtendsThePayload : Mem.wf room.buf ∧ room.len.toNat < Config.bufMax := by decide
/-- V-T1 and V-T2. -/
theorem witness_TimeoutResetsAStalledFrame :
    (0 < room.len.toNat ∧ Config.tIdleMs < ((101 : Time) - room.lastByteTimestamp).toNat) ∧
    ¬(0 < room.len.toNat ∧ Config.tIdleMs < ((100 : Time) - room.lastByteTimestamp).toNat) := by decide
theorem witness_TimeoutFiresOnlyInDataFrames : room.Inv ∧ room.timeout 101 ≠ room :=
  ⟨⟨by decide, by decide, by decide, by decide, by decide⟩, by decide⟩
theorem witness_EscapedPayloadShape : (escape [0xDB])[0]? = some (0xDB : Byte) := by decide
theorem witness_commands :
    (ready Dec.reset).ses.online = true ∧ (ready Dec.reset).ses.txLock = false ∧
    (ready Dec.reset).env.writeAnswers = .ok (kissEncode 0x01 [ticks 120]).length :: [] := by decide
theorem witness_commands_short :
    (answering [.ok 3]).ses.online = true ∧ (answering [.ok 3]).ses.txLock = false ∧
    (3 : Nat) ≠ (kissEncode 0x01 [ticks 120]).length ∧ (answering [.ok 3]).env.writeAnswers = .ok 3 :: [] := by decide
theorem witness_commands_fail :
    (answering [.fail 2]).ses.online = true ∧ (answering [.fail 2]).ses.txLock = false ∧
    (answering [.fail 2]).env.writeAnswers = .fail 2 :: [] := by decide
theorem witness_MillisecondCommandsSendTicks :
    (1920 : Int) ≤ 1929 ∧ (1929 : Int) ≤ 1929 ∧ (2190 : Int) ≤ 2199 ∧ (2199 : Int) ≤ 2199 ∧
    (0x0C : Byte) ≠ 0xC0 ∧ (0x0C : Byte) ≠ 0xDB := by decide
theorem witness_CommandsAreRefusedOffline : State.reset.ses.online = false ∧ offline.ses.online = false := by decide
theorem witness_OpenStartsTheSession :
    closed.ses.online = false ∧ closed.ses.interfaceReady = false ∧ closed.ses.openCalled = false ∧
    closed.ses.txLock = false ∧ closed.env.openAnswers = [.ok 1] ∧
    closed.env.writeAnswers = acceptAll (openSequence cfg) ++ [] ∧ closed.env.elapsed = [0, 0] := by decide
theorem witness_FailedTransportOpenChangesNothing :
    refusing.ses.online = false ∧ refusing.ses.interfaceReady = false ∧ refusing.ses.openCalled = false ∧
    refusing.env.openAnswers = .fail :: [] := by decide
/-- P4 part a: the third frame short. -/
theorem witness_FailedSequenceFaultsTheSession :
    let s := opening [.ok 4, .ok 4, .ok 2]
    s.ses.online = false ∧ s.ses.interfaceReady = false ∧ s.ses.openCalled = false ∧ s.ses.txLock = false ∧
    s.env.openAnswers = .ok 1 :: [] ∧ (openSequence cfg)[2]? = some (0x02, 0xFF, .persistence) ∧
    s.env.writeAnswers = acceptAll ((openSequence cfg).take 2) ++ .ok 2 :: [] ∧
    writeError (kissEncode 0x02 [0xFF]) .persistence (.ok 2) = some (.configurationError .persistence) := by decide
/-- V-X11: the first frame failing, and the last of the five. -/
theorem witness_FailedSequenceFaultsTheSession_ends :
    (openSequence cfg)[0]? = some (0x01, 0x23, .preamble) ∧
    (opening [.fail 0]).env.writeAnswers = acceptAll ((openSequence cfg).take 0) ++ .fail 0 :: [] ∧
    writeError (kissEncode 0x01 [0x23]) .preamble (.fail 0) = some .transportIOError ∧
    (openSequence cfg)[4]? = some (0x0F, 0x00, .flowcontrol) ∧
    (opening [.ok 4, .ok 4, .ok 4, .ok 4, .ok 0]).env.writeAnswers =
      acceptAll ((openSequence cfg).take 4) ++ .ok 0 :: [] ∧
    writeError (kissEncode 0x0F [0x00]) .flowcontrol (.ok 0) = some (.configurationError .flowcontrol) := by decide
theorem witness_SecondOpenIsRefused :
    ¬((ready Dec.reset).ses.online = false ∧ (ready Dec.reset).ses.interfaceReady = false ∧
      (ready Dec.reset).ses.openCalled = false) ∧
    ¬(offline.ses.online = false ∧ offline.ses.interfaceReady = false ∧ offline.ses.openCalled = false) := by decide
theorem witness_StepRunsTheDecodedInstruction :
    (readyQ Dec.reset [0xC0]).ses.online = true ∧ (readyQ Dec.reset [0xC0]).env.turns = [.loop] ∧
    (readyQ Dec.reset [0xC0]).env.arrivals = [[]] ∧ (readyQ Dec.reset [0xC0]).env.availAnswers = [.ok] ∧
    (readyQ Dec.reset [0xC0]).env.readAnswers = [.ok] ∧ (readyQ Dec.reset [0xC0]).env.elapsed = [0, 0] ∧
    (readyQ Dec.reset [0xC0]).env.rxQueue ++ [] = [0xC0] := by decide
theorem witness_StepRunsTheDecodedInstruction_call :
    ({ closed with env := { closed.env with turns := [.call (encode (.openSession cfg))] } } : State).env.turns =
      [.call (encode (.openSession cfg))] ∧
    decode (encode (.openSession cfg)) = .ok (.openSession cfg) ∧ (Instr.openSession cfg).isCallerOp = true := by decide
theorem witness_IdleIterationPolls :
    (ready room).ses.online = true ∧ (ready room).ses.txLock = false ∧ (ready room).env.turns = [.loop] ∧
    (ready room).env.arrivals = [[]] ∧ (ready room).env.rxQueue = [] ∧ (ready room).env.availAnswers = [.ok] ∧
    (ready room).env.elapsed = [0, 0] ∧ (ready room).env.writeAnswers = [.ok 4] := by decide
theorem witness_LoopErrorsEndTheSession_avail :
    let s : State := { ready room with env := { (ready room).env with availAnswers := [.fail] } }
    s.ses.online = true ∧ s.env.turns = .loop :: [] ∧ s.env.arrivals = [] :: [] ∧ s.env.availAnswers = .fail :: [] := by
  decide
theorem witness_LoopErrorsEndTheSession_read :
    let s : State := { readyQ room [0x41] with env := { (readyQ room [0x41]).env with readAnswers := [.fail] } }
    s.ses.online = true ∧ s.env.turns = .loop :: [] ∧ s.env.arrivals = [] :: [] ∧ s.env.availAnswers = .ok :: [] ∧
    s.env.rxQueue ++ [] ≠ [] ∧ s.env.readAnswers = .fail :: [] := by decide
theorem witness_LoopErrorsEndTheSession_poll :
    let s := answering [.ok 2]
    s.ses.online = true ∧ s.env.turns = .loop :: [] ∧ s.env.arrivals = [] :: [] ∧ s.env.availAnswers = .ok :: [] ∧
    s.env.rxQueue ++ [] = [] ∧ s.ses.txLock = false ∧ s.env.writeAnswers = .ok 2 :: [] ∧
    writeError [0xC0, 0x12, 0x01, 0xC0] .peak (.ok 2) = some (.configurationError .peak) := by decide
theorem witness_RaisingCallbackEndsTheSession :
    let s : State := { ready (decAt .inFrame 0x12 []) with
      env := { (ready Dec.reset).env with callbackAnswers := [.raised .none] } }
    (0xF6 : Byte) ≠ 0xC0 ∧ s.dec.inFrame = true ∧ s.dec.len.toNat < Config.bufMax ∧ s.dec.cmd = 0x12 ∧
    s.env.callbackAnswers = .raised .none :: [] := by decide
theorem witness_RaisingCallbackEndsTheSession_stuck :
    let s : State := { ready (decAt .inFrame 0x12 []) with
      env := { (ready Dec.reset).env with callbackAnswers := [.neverReturns] } }
    (0xF6 : Byte) ≠ 0xC0 ∧ s.dec.inFrame = true ∧ s.dec.len.toNat < Config.bufMax ∧ s.dec.cmd = 0x12 ∧
    s.env.callbackAnswers = .neverReturns :: [] := by decide
theorem witness_RaisingCallbackEndsTheSession_data :
    let s : State := { ready full with
      env := { (ready Dec.reset).env with callbackAnswers := [.raised .transportIOError] } }
    s.dec.inFrame = true ∧ s.dec.cmd = 0x00 ∧ s.dec.len.toNat ≤ Config.bufMax ∧
    s.env.callbackAnswers = .raised .transportIOError :: [] := by decide
theorem witness_RaisingCallbackEndsTheSession_data_stuck :
    let s : State := { ready full with
      env := { (ready Dec.reset).env with callbackAnswers := [.neverReturns] } }
    s.dec.inFrame = true ∧ s.dec.cmd = 0x00 ∧ s.dec.len.toNat ≤ Config.bufMax ∧
    s.env.callbackAnswers = .neverReturns :: [] := by decide
theorem witness_OfflineTurnDoesNothing :
    offline.ses.online = false ∧ offline.env.turns = .loop :: [] ∧ offline.ses.faulted = false := by decide
theorem witness_OfflineTurnDoesNothing_faulted :
    let s : State := { closed with ses := { closed.ses with openCalled := true, faulted := true }
                                   env := { closed.env with turns := [.loop] } }
    s.ses.online = false ∧ s.env.turns = .loop :: [] ∧ s.ses.faulted = true := by decide
theorem witness_OfflineIsTerminal : offline.ses.fsm = some .offline ∧ ∃ t, step offline = .next t := ⟨by decide, _, rfl⟩
theorem witness_OfflineIsTerminal_closed :
    closed.ses.fsm = some .closed ∧ ({ closed with env := { closed.env with turns := [.loop] } } : State).drawTurn.1 = .loop ∧
    ∃ t, step { closed with env := { closed.env with turns := [.loop] } } = .next t := ⟨by decide, by decide, _, rfl⟩
/-- The table's rows: CLOSED to READY, READY to READY, READY to OFFLINE. -/
theorem witness_SessionTransitionsAreTheTable :
    (after (step { closed with env := { closed.env with turns := [.call (encode (.openSession cfg))] } })).map
      (·.ses.fsm) = some (some .ready) ∧
    (after (step (ready Dec.reset))).map (·.ses.fsm) = some (some .ready) ∧
    (after (step { ready Dec.reset with env := { (ready Dec.reset).env with availAnswers := [.fail] } })).map
      (·.ses.fsm) = some (some .offline) := by decide
theorem witness_CallerLeavesTheDecoderAlone :
    ∃ t, step { ready room with env := { (ready room).env with turns := [.call [0xC0, 0x12, 0x01, 0xC0]] } } = .next t :=
  ⟨_, rfl⟩
theorem witness_WireCarriesSessionFramesInOrder : ∃ t, step (ready room) = .next t := ⟨_, rfl⟩
theorem witness_ReceiveQueueIsFifo :
    (readyQ room [0x41, 0x42]).drawTurn.1 = .loop ∧ (readyQ room [0x41, 0x42]).ses.online = true ∧
    ∃ t, step (readyQ room [0x41, 0x42]) = .next t := ⟨by decide, by decide, _, rfl⟩
theorem witness_ReceiveQueueIsFifo_elsewhere : offline.ses.online = false ∧ ∃ t, step offline = .next t :=
  ⟨by decide, _, rfl⟩
/-- The call of Open that SessionTransitionsAreTheTable names, and the state after it. -/
theorem witness_SessionTransitionsAreTheTable_open :
    let s : State := { closed with env := { closed.env with turns := [.call (encode (.openSession cfg))] } }
    s.drawTurn.1 = .call (encode (.openSession cfg)) ∧
    decode (encode (.openSession cfg)) = .ok (.openSession cfg) ∧
    (after (step s)).map (·.out.result) = some .ok := by decide
theorem witness_CallbacksComeOneAtATime : ∃ t, step (readyQ (decAt .inFrame 0x12 []) [0xF6]) = .next t := ⟨_, rfl⟩
theorem witness_NoPollWhileBytesWait :
    (readyQ room [0x41]).drawTurn.1 = .loop ∧ (readyQ room [0x41]).drawTurn.2.arrive.env.rxQueue ≠ [] ∧
    ∃ t, step (readyQ room [0x41]) = .next t := ⟨by decide, by decide, _, rfl⟩
theorem witness_OnlineOnlyAfterAFullOpen :
    closed.ses.online = false ∧
    (after (step { closed with env := { closed.env with turns := [.call (encode (.openSession cfg))] } })).map
      (·.ses.online) = some true := by decide
theorem witness_ReceivedRowsFrame : Instr.fend.isReceived = true ∧ ∃ t, exec .fend (ready full) = .next t :=
  ⟨by decide, _, rfl⟩
/-- The clause on a callback that raises. -/
theorem witness_ReceivedRowsFrame_raised :
    let s : State := { ready (decAt .inFrame 0x12 []) with
      env := { (ready Dec.reset).env with callbackAnswers := [.raised .transportIOError] } }
    s.drawCallback.1 = .raised .transportIOError ∧
    (after (exec (.rxPeak 0xF6) s)).map (fun t => (t.out.callbacks, t.ses.online)) =
      some ([.onPeakValue (-10)], false) := by decide
theorem witness_TransitionRowsFrame :
    (after (exec .rxClose (ready full))).isSome = true ∧ (after (exec .rxOpen State.reset)).isSome = true ∧
    (after (exec (.rxSel 0x41) (ready (decAt .inFrame 0xFE [])))).isSome = true ∧
    (after (exec .rxFesc (ready room))).isSome = true ∧
    (after (exec (.rxUnesc 0x41) (ready (decLen .escaped 0x00 610)))).isSome = true ∧
    (after (exec (.rxPlain 0x41) (ready room))).isSome = true ∧
    (after (exec (.rxPeak 0x41) (ready (decAt .inFrame 0x12 [])))).isSome = true ∧
    (after (exec (.rxIgnore 0x41) (ready (decAt .inFrame 0x01 [])))).isSome = true ∧
    (after (exec (.rxDropFull 0x41) (ready full))).isSome = true ∧
    (after (exec (.rxDropIdle 0x41) State.reset)).isSome = true := by decide
theorem witness_CommandsFrame :
    Instr.askForPeak.isReceived = false ∧ (∀ c, Instr.askForPeak ≠ .openSession c) ∧
    ∃ t, exec .askForPeak (ready room) = .next t := ⟨by decide, fun c => by simp, _, rfl⟩
theorem witness_OpenFrame : ∃ t, exec (.openSession cfg) closed = .next t := ⟨_, rfl⟩
theorem witness_DecodeOfEncode :
    (Instr.setPreamble (BitVec.ofInt Config.cfgW (-5))).wf = true ∧ (Instr.setPreamble 1920).rxRow = none := by decide
theorem witness_DecodeOfTransitionRows :
    (Instr.rxUnesc 0xDC).wf = true ∧ (Instr.rxUnesc 0xDC).rxRow = some (.unesc, 0xDC) := by decide
theorem witness_DecodedInstructionsAreWellFormed : decode [0x07] = .ok (.unassigned 0x07) := by decide
theorem witness_HostFrameIsWhatTheOperationSends :
    ([0x01, 0xDB, 0xDC, 0xC0] : List Byte) ≠ [] ∧ decode (0xC0 :: [0x01, 0xDB, 0xDC, 0xC0]) = .ok (.setPreamble 1920) ∧
    (ready Dec.reset).ses.online = true ∧ (ready Dec.reset).ses.txLock = false ∧
    ({ ready Dec.reset with env := { (ready Dec.reset).env with writeAnswers := [.ok 5] } } : State).env.writeAnswers =
      [.ok (0xC0 :: ([0x01, 0xDB, 0xDC, 0xC0] : List Byte)).length] := by decide

end Sys2Proof.Tests
end

namespace Sys2Proof.Machine

/-! The encoder (spec/40_encoder.md): what `esc1`, `escape` and `kissEncode` give, with the wire constants as the
spec's table writes them, and the lengths of their results. -/

theorem esc1_eq (b : Byte) :
    esc1 b = if b = 0xC0 then [0xDB, 0xDC] else if b = 0xDB then [0xDB, 0xDD] else [b] := rfl

@[simp] theorem escape_nil : escape [] = [] := rfl

@[simp] theorem escape_cons (b : Byte) (rest : List Byte) : escape (b :: rest) = esc1 b ++ escape rest := rfl

theorem kissEncode_eq (c : Byte) (payload : List Byte) :
    kissEncode c payload = [0xC0] ++ [c] ++ escape payload ++ [0xC0] := rfl

/-- The arm of `Encode` in `exec`: only the result changes. -/
theorem exec_encodeFrame (c : Byte) (payload : List Byte) (s : State) :
    exec (.encodeFrame c payload) s = .next { s with out := { s.out with result := .bytes (kissEncode c payload) } } :=
  rfl

/-- A reserved byte takes two bytes, every other byte one. -/
theorem esc1_length (b : Byte) : (esc1 b).length = 1 + if b = 0xC0 ∨ b = 0xDB then 1 else 0 := by
  rw [esc1_eq]
  by_cases hFend : b = 0xC0
  · subst hFend; rfl
  by_cases hFesc : b = 0xDB
  · subst hFesc; rfl
  · rw [if_neg hFend, if_neg hFesc, if_neg (not_or.mpr ⟨hFend, hFesc⟩)]; rfl

/-- R103 for the payload alone: escaping adds one byte per reserved byte. -/
theorem escape_length (payload : List Byte) :
    (escape payload).length = payload.length + payload.countP (fun b => b = 0xC0 ∨ b = 0xDB) := by
  induction payload with
  | nil => rfl
  | cons b rest ih =>
    simp only [escape_cons, List.length_append, esc1_length, ih, List.length_cons, List.countP_cons, decide_eq_true_eq]
    omega

/-- The delimiters and the command byte add three bytes to the escaped payload. -/
theorem kissEncode_length (c : Byte) (payload : List Byte) :
    (kissEncode c payload).length = (escape payload).length + 3 := by
  simp [kissEncode_eq]

/-- Settles O27: the length of the escaped payload plus three; the bounds hold since between none and all of the
payload's bytes are reserved. -/
theorem encodedLength : Obligations.EncodedLength := by
  intro c payload
  have hcount := payload.countP_le_length (p := fun b => b = 0xC0 ∨ b = 0xDB)
  rw [kissEncode_length, escape_length]
  exact ⟨by omega, by omega, by omega⟩

/-- Settles O26: R100 by the arm of `Encode`, R101 by the recursion of `escape`. -/
theorem encodeReturnsTheFrame : Obligations.EncodeReturnsTheFrame := by
  refine ⟨fun c payload s => ?_, escape_nil, fun b payload => ?_⟩
  · rw [exec_encodeFrame, kissEncode_eq]
  · rw [escape_cons, esc1_eq]

end Sys2Proof.Machine

namespace Sys2Proof.Machine

/-! The decoder's silent transitions (spec/41_decoder.md R125 to R137): a transition other than RX.CLOSE and RX.PEAK,
under its guard, changes the decoder's registers alone, whether the step is the transition's own row or the byte's. -/

/-- The transition row and the SPECIAL or CMD row of the byte do the same: the transition's writes (R120, R193). -/
theorem exec_rows_of_silent_guard {t : Transition} {b : Byte} {s : State} (hguard : s.dec.guard b t)
    (hclose : t ≠ .close) (hpeak : t ≠ .peak) :
    exec (t.toInstr b) s = .next { s with dec := s.dec.fire t b } ∧
    exec (decodeByte b) s = .next { s with dec := s.dec.fire t b } := by
  have hreceive : receiveByte b s = .next { s with dec := s.dec.fire t b } := by
    rw [receiveByte_of_guard hguard, fireRx_silent hclose hpeak]
  have hselect : s.dec.select b = t := (s.dec.select_eq_iff b t).2 hguard
  constructor
  · rw [← hselect, exec_toInstr_of_select, hselect, hreceive]
  · rw [exec_decodeByte, hreceive]

/-- R131 with the wire constants as the spec's table writes them. -/
theorem unesc_eq (b : Byte) : unesc b = if b = 0xDC then 0xC0 else if b = 0xDD then 0xDB else b := rfl

/-- Settles O11: RX.UNESC is selected for `b`, TFEND and TFESC alike, and each appends its translation (R129, R131). -/
theorem escapedByteIsTranslatedAndAppended : Obligations.EscapedByteIsTranslatedAndAppended := by
  intro s b hFend hFesc hframe hroom hdata hescape
  have happends (c : Byte) (hcFend : c ≠ 0xC0) (hcFesc : c ≠ 0xDB) :=
    exec_rows_of_silent_guard (s := s) (t := .unesc) (b := c)
      ⟨hcFend, hcFesc, hframe, hroom, hdata, hescape⟩ (by decide) (by decide)
  refine ⟨(happends b hFend hFesc).1, (happends 0xDC (by decide) (by decide)).2,
    (happends 0xDD (by decide) (by decide)).2, fun hTfend hTfesc => ?_⟩
  have hitself : unesc b = b := by rw [unesc_eq, if_neg hTfend, if_neg hTfesc]
  rw [(happends b hFend hFesc).2, Dec.fire, hitself]
  rfl

/-- Settles O8: RX.OPEN is the transition of a delimiter that does not close a DATA frame. -/
theorem openRestartsTheFrame : Obligations.OpenRestartsTheFrame := fun s hnotData =>
  exec_rows_of_silent_guard (s := s) (t := .openFrame) (b := 0xC0) ⟨hnotData, rfl⟩ (by decide) (by decide)

/-- Settles O10: the guard of RX.FESC does not read `escape_pending`, so it is selected from ESCAPED too. -/
theorem escapeByteBeginsAnEscape : Obligations.EscapeByteBeginsAnEscape := fun s hframe hroom hdata =>
  exec_rows_of_silent_guard (s := s) (t := .fesc) (b := 0xDB) ⟨rfl, hframe, hroom, hdata⟩ (by decide) (by decide)

/-- Settles O14: the guard of RX.IGNORE, which writes nothing, is what the other guards leave of a frame with room. -/
theorem otherCommandsIgnoreTheirBytes : Obligations.OtherCommandsIgnoreTheirBytes :=
  fun s b hFend hframe hroom hnotSelector hnotData hnotPeak =>
    exec_rows_of_silent_guard (s := s) (t := .ignore) (b := b)
      ⟨hFend, hframe, hroom, hnotSelector, hnotData, hnotPeak⟩ (by decide) (by decide)

end Sys2Proof.Machine

namespace Sys2Proof.Machine

/-! What can happen in a session that is not online (spec/43_receive_loop.md R205): the loop's turn is inert, and of the
caller's operations none runs but Open from CLOSED and `Encode`. -/

theorem Ses.fsm_eq_offline_iff (x : Ses) :
    x.fsm = some .offline ↔ x.online = false ∧ x.interfaceReady = true := by
  unfold Ses.fsm
  cases x.online <;> cases x.interfaceReady <;> simp

theorem Ses.fsm_eq_closed_iff (x : Ses) :
    x.fsm = some .closed ↔ x.online = false ∧ x.interfaceReady = false := by
  unfold Ses.fsm
  cases x.online <;> cases x.interfaceReady <;> simp

theorem Ses.mayOpen_eq_true_iff (x : Ses) :
    x.mayOpen = true ↔ x.fsm = some .closed ∧ x.openCalled = false := by
  simp [Ses.mayOpen]

/-- A caller's operation that answers with a next state is a command of an online session (R178), an Open from CLOSED
(R161), or `Encode`, which returns its frame and does nothing else (R100). -/
theorem exec_callerOp_next {i : Instr} {s t : State} (hop : i.isCallerOp = true) (h : exec i s = .next t) :
    s.ses.online = true ∨ s.ses.fsm = some .closed ∨
    ∃ frame, t = { s with out := { s.out with result := .bytes frame } } := by
  cases i with
  | setPreamble _ | setTxTail _ | setPersistence _ | setSlotTime _ | setFlowControl _ | enableDiagnostics
  | disableDiagnostics | askForPeak => exact .inl (callerCommand_next h).1
  | openSession cfg => exact .inr (.inl (s.ses.mayOpen_eq_true_iff.1 (execOpenSession_next h).1).1)
  | encodeFrame c payload =>
    rw [exec_encodeFrame] at h
    exact .inr (.inr ⟨_, (Host.Outcome.next.inj h).symm⟩)
  | _ => nomatch hop

/-- The loop's turn in a session that is not online draws the turn and does nothing else (R205, R241). -/
theorem step_loop_next_of_not_online {s t : State} (hoff : s.ses.online = false) (hturn : s.drawTurn.1 = .loop)
    (h : step s = .next t) : t = s.drawTurn.2 := by
  obtain ⟨-, hon, -⟩ | ⟨-, -, -, ht⟩ | ⟨record, i, hcall, -⟩ := step_next h
  · simp [hoff] at hon
  · exact ht
  · simp [hturn] at hcall

/-- Everything a step can do in OFFLINE: an inert turn of the loop, or a call of `Encode`. -/
theorem step_next_of_offline {s t : State} (hfsm : s.ses.fsm = some .offline) (h : step s = .next t) :
    t = s.drawTurn.2 ∨
    ∃ frame, t = { s.drawTurn.2 with out := { s.drawTurn.2.out with result := .bytes frame } } := by
  obtain ⟨hoff, -⟩ := s.ses.fsm_eq_offline_iff.1 hfsm
  obtain ⟨-, hon, -⟩ | ⟨-, -, -, ht⟩ | ⟨record, i, -, -, hop, hexec⟩ := step_next h
  · simp [hoff] at hon
  · exact .inl ht
  · obtain hon | hclosed | hencode := exec_callerOp_next hop hexec
    · simp [hoff] at hon
    · simp [hfsm] at hclosed
    · exact .inr hencode

/-- Settles O43: in OFFLINE a step draws the turn and at most returns `Encode`'s frame, and the loop's turn in CLOSED
draws the turn; drawing the turn leaves registers, queue and output alone. -/
theorem offlineIsTerminal : Obligations.OfflineIsTerminal := by
  refine ⟨fun s t hfsm h => ?_, fun s t hfsm hturn h => ?_⟩
  · obtain rfl | ⟨frame, rfl⟩ := step_next_of_offline hfsm h
    · simp [hfsm]
    · simp [hfsm]
  · obtain rfl := step_loop_next_of_not_online (s.ses.fsm_eq_closed_iff.1 hfsm).1 hturn h
    simp

end Sys2Proof.Machine

namespace Sys2Proof.Machine

/-! What a step does to the registers (spec/43_receive_loop.md, spec/42_session_commands.md): the ends of an iteration
of the loop and of each call of the caller's, and from them the invariant of decoder and session (R27, R35, R63). -/

/-! ### Sending a frame with the lock free -/

/-- The lock is taken and released within the operation (R63), so a sender that finds it free leaves the session as it
was. -/
theorem sendFrame_ses_of_lock_free {c v : Byte} {setting : Setting} {s : State} (hlock : s.ses.txLock = false) :
    (sendFrame c v setting s).2.ses = s.ses := by
  show { s.ses with txLock := false } = s.ses
  rw [← hlock]

/-- The end of the poll touches the session alone (R198, R199). -/
@[simp] theorem finishPoll_dec (r : Option SesError × State) : (finishPoll r).dec = r.2.dec := by
  obtain ⟨-, h⟩ | ⟨e, -, h⟩ := finishPoll_cases r <;> simp [h]

@[simp] theorem finishPoll_env (r : Option SesError × State) : (finishPoll r).env = r.2.env := by
  obtain ⟨-, h⟩ | ⟨e, -, h⟩ := finishPoll_cases r <;> simp [h]

@[simp] theorem finishPoll_out (r : Option SesError × State) : (finishPoll r).out = r.2.out := by
  obtain ⟨-, h⟩ | ⟨e, -, h⟩ := finishPoll_cases r <;> simp [h]

/-- The poll's error, if one is raised, takes the session OFFLINE (R198, R199). -/
theorem finishPoll_sendFrame_ses {c v : Byte} {setting : Setting} {s : State} (hlock : s.ses.txLock = false) :
    (finishPoll (sendFrame c v setting s)).ses = s.ses ∨
    ∃ e, (finishPoll (sendFrame c v setting s)).ses = { s.ses with error := e, online := false } := by
  obtain ⟨-, h⟩ | ⟨e, -, h⟩ := finishPoll_cases (sendFrame c v setting s)
  · exact .inl (by rw [h, sendFrame_ses_of_lock_free hlock])
  · refine .inr ⟨e, ?_⟩
    rw [h, State.takeError, sendFrame_ses_of_lock_free hlock]

/-- The end of a command touches the latched error and the result alone (R176). -/
@[simp] theorem finishCommand_dec (r : Option SesError × State) : (finishCommand r).dec = r.2.dec := by
  obtain ⟨-, h⟩ | ⟨e, -, h⟩ := finishCommand_cases r <;> simp [h]

@[simp] theorem finishCommand_env (r : Option SesError × State) : (finishCommand r).env = r.2.env := by
  obtain ⟨-, h⟩ | ⟨e, -, h⟩ := finishCommand_cases r <;> simp [h]

@[simp] theorem finishCommand_out_opens (r : Option SesError × State) :
    (finishCommand r).out.opens = r.2.out.opens := by
  obtain ⟨-, h⟩ | ⟨e, -, h⟩ := finishCommand_cases r <;> simp [h]

@[simp] theorem finishCommand_out_wire (r : Option SesError × State) : (finishCommand r).out.wire = r.2.out.wire := by
  obtain ⟨-, h⟩ | ⟨e, -, h⟩ := finishCommand_cases r <;> simp [h]

@[simp] theorem finishCommand_out_callbacks (r : Option SesError × State) :
    (finishCommand r).out.callbacks = r.2.out.callbacks := by
  obtain ⟨-, h⟩ | ⟨e, -, h⟩ := finishCommand_cases r <;> simp [h]

/-- A command's error is latched and changes no other register of the session (R176, D18). -/
theorem finishCommand_sendFrame_ses {c v : Byte} {setting : Setting} {s : State} (hlock : s.ses.txLock = false) :
    ∃ e, (finishCommand (sendFrame c v setting s)).ses = { s.ses with error := e } := by
  obtain ⟨-, h⟩ | ⟨e, -, h⟩ := finishCommand_cases (sendFrame c v setting s)
  · exact ⟨s.ses.error, by rw [h]; exact sendFrame_ses_of_lock_free (setting := setting) hlock⟩
  · exact ⟨e, by rw [h, State.takeError, sendFrame_ses_of_lock_free hlock]⟩

/-! ### An iteration of the loop -/

/-- A received byte that answers with a next state fired the transition whose guard holds (R120). -/
theorem receiveByte_next {b : Byte} {s t : State} (h : receiveByte b s = .next t) :
    s.dec.guard b (s.dec.select b) ∧ fireRx (s.dec.select b) b s = .next t :=
  ⟨s.dec.guard_select b, h⟩

theorem State.fetched_dec (rest : List Byte) (s : State) :
    (s.fetched rest).dec = { s.dec with lastByteTimestamp := (s.fetched rest).env.clock } := rfl

/-- An iteration leaves the session alone or takes it OFFLINE with an error latched (R199). -/
theorem loopIteration_next_ses {s t : State} (hlock : s.ses.txLock = false) (h : loopIteration s = .next t) :
    t.ses = s.ses ∨ ∃ e, t.ses = { s.ses with error := e, online := false } := by
  obtain ⟨-, rfl⟩ | ⟨-, b, rest, -, ⟨-, rfl⟩ | ⟨-, hbyte⟩⟩ | ⟨-, -, hidle⟩ := loopIteration_next h
  · exact .inr ⟨_, rfl⟩
  · exact .inr ⟨_, rfl⟩
  · obtain ⟨-, -, -, -, hses | ⟨-, e, -, -, hses⟩⟩ := fireRx_next (receiveByte_next hbyte).2
    · exact .inl hses
    · exact .inr ⟨e, hses⟩
  · obtain ⟨-, rfl⟩ := idleIteration_next hidle
    exact finishPoll_sendFrame_ses hlock

/-- An iteration keeps R27: it stamps the time of a byte and steps the decoder, or runs the timeout (R192, R196). -/
theorem loopIteration_keeps_dec_inv {s t : State} (hdec : s.dec.Inv) (h : loopIteration s = .next t) : t.dec.Inv := by
  obtain ⟨-, rfl⟩ | ⟨-, b, rest, -, ⟨-, rfl⟩ | ⟨-, hbyte⟩⟩ | ⟨-, -, hidle⟩ := loopIteration_next h
  · simpa using hdec
  · simpa using hdec
  · obtain ⟨hguard, hfire⟩ := receiveByte_next hbyte
    rw [(fireRx_next hfire).1]
    refine Dec.Inv.fire ?_ hguard
    rw [State.fetched_dec]
    exact hdec.timestamp _
  · obtain ⟨-, rfl⟩ := idleIteration_next hidle
    simpa using hdec.timeout _

/-! ### A call of the caller's -/

/-- Everything a call of the caller's can do when it answers with a next state: send the one frame of a session command
(R160), run Open (R161), or return `Encode`'s frame (R100). -/
theorem exec_callerOp_cases {i : Instr} {s t : State} (hop : i.isCallerOp = true) (h : exec i s = .next t) :
    (∃ c v setting, c ∈ sessionCommands ∧ s.ses.online = true ∧ s.ses.txLock = false ∧
      t = finishCommand (sendFrame c v setting s)) ∨
    (∃ cfg, i = .openSession cfg ∧ execOpenSession cfg s = .next t) ∨
    (∃ frame, t = { s with out := { s.out with result := .bytes frame } }) := by
  cases i with
  | setPreamble _ | setTxTail _ | setPersistence _ | setSlotTime _ | setFlowControl _ | enableDiagnostics
  | disableDiagnostics | askForPeak =>
    obtain ⟨hon, hlock, ht⟩ := callerCommand_next h
    exact .inl ⟨_, _, _, by decide, hon, hlock, ht⟩
  | openSession cfg => exact .inr (.inl ⟨cfg, rfl, h⟩)
  | encodeFrame c payload => exact .inr (.inr ⟨_, (Host.Outcome.next.inj h).symm⟩)
  | _ => nomatch hop

/-- The session registers at the three ends of Open: `T.open` failed (R162), the sequence failed (R166), the loop starts
(R165). The decoder changes at the third end alone. -/
theorem execOpenSession_next_registers {cfg : SessionConfig} {s t : State} (h : execOpenSession cfg s = .next t) :
    (t.dec = s.dec ∧ t.ses = { s.ses with error := .transportOpenError, openCalled := true }) ∨
    (∃ handle e, e ≠ .none ∧ s.ses.txLock = false ∧ t.dec = s.dec ∧
      t.ses = { s.ses with config := some cfg, handle := some handle, error := e, openCalled := true,
                           faulted := true }) ∨
    (∃ handle time, s.ses.txLock = false ∧ t.dec = s.dec.restart time ∧ t.out.result = .ok ∧
      t.ses = { s.ses with config := some cfg, handle := some handle, online := true, interfaceReady := true,
                           openCalled := true }) := by
  obtain ⟨-, ⟨-, rfl⟩ | ⟨handle, -, hlock, rfl⟩⟩ := execOpenSession_next h
  · exact .inl ⟨rfl, rfl⟩
  obtain ⟨s2, hsend, hopen⟩ | ⟨e, s2, hsend, hopen⟩ := openWith_cases cfg handle (s.callOpen cfg).2
  all_goals
    obtain ⟨hdec, -, -, -, -, -, hses, hfree⟩ := hsend ▸ sendAll_frame (openSequence cfg) (State.pass Config.tSettleMs
      { (s.callOpen cfg).2 with ses := { (s.callOpen cfg).2.ses with handle := some handle, config := some cfg } })
    have hfree := hfree hlock
    rw [hfree, ← hlock] at hses
    rw [hopen]
  · refine .inr (.inr ⟨handle, s2.now.1, hlock, by rw [State.startLoop_dec, hdec]; rfl, rfl, ?_⟩)
    show { s2.ses with interfaceReady := true, online := true } = _
    rw [hses]; rfl
  · have he : e ≠ .none := by
      obtain rfl | ⟨setting, rfl⟩ := sendAll_error (congrArg Prod.fst hsend) <;> simp
    refine .inr (.inl ⟨handle, e, he, hlock, hdec, ?_⟩)
    show { s2.ses with error := e, faulted := true } = _
    rw [hses]; rfl

/-! ### The invariant -/

/-- An error inside the loop of an online session keeps what a READY session holds (R199). -/
theorem Ses.Inv.loopError {x : Ses} (h : x.Inv) (hon : x.online = true) (e : SesError) :
    ({ x with error := e, online := false } : Ses).Inv where
  lockFree := h.lockFree
  readyWhenOnline := nofun
  openedWhenReady := h.openedWhenReady
  faultedClosed hf := by simp [(h.openedWhenReady (h.readyWhenOnline hon)).2.2.2] at hf

/-- A command's error in an online session (R176). -/
theorem Ses.Inv.commandError {x : Ses} (h : x.Inv) (hon : x.online = true) (e : SesError) :
    ({ x with error := e } : Ses).Inv where
  lockFree := h.lockFree
  readyWhenOnline := h.readyWhenOnline
  openedWhenReady := h.openedWhenReady
  faultedClosed hf := by simp [(h.openedWhenReady (h.readyWhenOnline hon)).2.2.2] at hf

/-- Open's precondition and the invariant: a session that may be opened is CLOSED and not faulted (R161). -/
theorem Ses.Inv.of_mayOpen {x : Ses} (h : x.Inv) (hopen : x.mayOpen = true) :
    x.online = false ∧ x.interfaceReady = false ∧ x.faulted = false := by
  obtain ⟨hclosed, hnot⟩ := x.mayOpen_eq_true_iff.1 hopen
  obtain ⟨hoff, hready⟩ := x.fsm_eq_closed_iff.1 hclosed
  refine ⟨hoff, hready, Bool.eq_false_iff.2 fun hf => ?_⟩
  simp [(h.faultedClosed hf).1] at hnot

/-- Each end of Open keeps the invariant. -/
theorem execOpenSession_keeps_inv {cfg : SessionConfig} {s t : State} (hs : s.Inv)
    (h : execOpenSession cfg s = .next t) : t.Inv := by
  obtain ⟨hoff, hready, hfault⟩ := hs.ses.of_mayOpen (execOpenSession_next h).1
  have hlock := hs.ses.lockFree
  obtain ⟨hdec, hses⟩ | ⟨handle, e, he, -, hdec, hses⟩ | ⟨handle, time, -, hdec, -, hses⟩ :=
    execOpenSession_next_registers h
  · refine ⟨hdec ▸ hs.dec, ?_⟩
    rw [hses]
    exact ⟨hlock, by simp [hoff], by simp [hready], by simp [hfault]⟩
  · refine ⟨hdec ▸ hs.dec, ?_⟩
    rw [hses]
    exact ⟨hlock, by simp [hoff], by simp [hready], fun _ => ⟨rfl, hready, he⟩⟩
  · refine ⟨hdec ▸ Dec.Inv.restart hs.dec.memory time, ?_⟩
    rw [hses]
    exact ⟨hlock, fun _ => rfl, fun _ => ⟨rfl, rfl, rfl, hfault⟩, by simp [hfault]⟩

/-- Each call of the caller's keeps the invariant. -/
theorem exec_callerOp_keeps_inv {i : Instr} {s t : State} (hs : s.Inv) (hop : i.isCallerOp = true)
    (h : exec i s = .next t) : t.Inv := by
  obtain ⟨c, v, setting, -, hon, hlock, rfl⟩ | ⟨cfg, -, hopen⟩ | ⟨frame, rfl⟩ := exec_callerOp_cases hop h
  · obtain ⟨e, hses⟩ := finishCommand_sendFrame_ses (c := c) (v := v) (setting := setting) hlock
    exact ⟨by simpa using hs.dec, by rw [hses]; exact hs.ses.commandError hon e⟩
  · exact execOpenSession_keeps_inv hs hopen
  · exact ⟨hs.dec, hs.ses⟩

/-- Each iteration of an online session's loop keeps the invariant. -/
theorem loopIteration_keeps_inv {s t : State} (hs : s.Inv) (hon : s.ses.online = true)
    (h : loopIteration s = .next t) : t.Inv := by
  refine ⟨loopIteration_keeps_dec_inv hs.dec h, ?_⟩
  obtain hses | ⟨e, hses⟩ := loopIteration_next_ses hs.ses.lockFree h
  · exact hses ▸ hs.ses
  · exact hses ▸ hs.ses.loopError hon e

/-- Settles O3: drawing the turn leaves the registers alone, and so does an inert turn; an iteration and each call of the
caller's keep the invariant. -/
theorem stepKeepsTheInvariant : Obligations.StepKeepsTheInvariant := by
  intro s t hs h
  have hdrawn : s.drawTurn.2.Inv := ⟨hs.dec, hs.ses⟩
  obtain ⟨-, hon, hloop⟩ | ⟨-, -, -, rfl⟩ | ⟨record, i, -, -, hop, hexec⟩ := step_next h
  · exact loopIteration_keeps_inv hdrawn hon hloop
  · exact hdrawn
  · exact exec_callerOp_keeps_inv hdrawn hop hexec

end Sys2Proof.Machine

namespace Sys2Proof.Machine

/-! The decoder's step and streams of bytes through the decoder (spec/41_decoder.md sections 1 to 5, spec/40_encoder.md). -/

/-! ### One step -/

/-- A step is the transition whose guard holds (R120). -/
theorem Dec.step_of_guard {d : Dec} {b : Byte} {t : Transition} (h : d.guard b t) :
    d.step b = (d.fire t b, d.emits t b) := by
  rw [Dec.step, (d.select_eq_iff b t).2 h]

/-- R120 with the wire constants as the spec's table writes them. -/
theorem Dec.select_eq (d : Dec) (b : Byte) :
    d.select b =
      if d.inFrame = true ∧ d.cmd = 0x00 ∧ b = 0xC0 then .close
      else if b = 0xC0 then .openFrame
      else if d.inFrame = true ∧ d.len.toNat < Config.bufMax then
        if d.len.toNat = 0 ∧ d.cmd = 0xFE then .sel
        else if d.cmd = 0x00 then if b = 0xDB then .fesc else if d.escapePending = true then .unesc else .plain
        else if d.cmd = 0x12 then .peak else .ignore
      else if d.inFrame = true then .dropFull else .dropIdle := rfl

/-- Settles O4: the order of the guards is `select`'s, and each branch is its transition's writes and emission. -/
theorem decodeStepFollowsThePriorityOrder : Obligations.DecodeStepFollowsThePriorityOrder := by
  intro d b
  rw [Dec.step, Dec.select_eq, ← unesc_eq]
  split_ifs <;> rfl

/-- A delimiter closes a DATA frame or opens a frame (R124, R125). -/
theorem Dec.select_fend (d : Dec) : d.select 0xC0 = .close ∨ d.select 0xC0 = .openFrame := by
  by_cases hdata : d.inFrame = true ∧ d.cmd = 0x00
  · exact .inl ((d.select_eq_iff _ _).2 ⟨hdata.1, hdata.2, rfl⟩)
  · exact .inr ((d.select_eq_iff _ _).2 ⟨hdata, rfl⟩)

/-- Settles O16: RX.CLOSE and RX.OPEN both clear; of the other transitions the two appends alone change the length, and
their guards ask for DATA and room. -/
theorem delimiterEmptiesAndOnlyDataGrows : Obligations.DelimiterEmptiesAndOnlyDataGrows := by
  refine fun d b => ⟨?_, fun hgrows => ?_⟩
  · rintro rfl
    obtain h | h := d.select_fend <;> rw [Dec.step, h] <;> exact ⟨rfl, rfl⟩
  · have hguard := d.guard_select b
    simp only [Dec.step] at hgrows ⊢
    cases ht : d.select b <;> rw [ht] at hgrows hguard
    case unesc =>
      obtain ⟨-, -, -, hroom, hdata, -⟩ := hguard
      exact ⟨hdata, Dec.append_len_toNat (b := unesc b) hroom⟩
    case plain =>
      obtain ⟨-, -, -, hroom, hdata, -⟩ := hguard
      exact ⟨hdata, Dec.append_len_toNat (b := b) hroom⟩
    all_goals simp [Dec.fire] at hgrows

/-- Settles O17: RX.CLOSE and RX.PEAK alone emit, and R27 bounds the payload (R122, R138). -/
theorem emittedFramesAreBounded : Obligations.EmittedFramesAreBounded := by
  intro d b f hinv hemit
  have hguard := d.guard_select b
  simp only [Dec.step] at hemit
  cases ht : d.select b <;> rw [ht] at hemit hguard
  case close =>
    obtain rfl := Option.some.inj hemit
    exact .inl ⟨rfl, hguard.2.2, by simpa using hinv.lenBound⟩
  case peak =>
    obtain rfl := Option.some.inj hemit
    exact .inr ⟨rfl, hguard.1, rfl⟩
  all_goals cases hemit

/-- Settles O23: the laws of the buffer's memory at address `dec.len` (R51). -/
theorem appendExtendsThePayload : Obligations.AppendExtendsThePayload := fun d b hwf hroom =>
  ⟨Dec.append_payload hwf hroom, Mem.read_write_same hwf.1, fun _ hother => Mem.read_write_other d.buf b hother,
    Mem.write_wf hwf hroom, d.clear_payload⟩

/-- The guard of R140 as the spec writes it. -/
theorem Dec.timedOut_eq_true_iff (d : Dec) (now : Time) :
    d.timedOut now = true ↔ 0 < d.len.toNat ∧ Config.tIdleMs < (now - d.lastByteTimestamp).toNat := by
  rw [Dec.timedOut, Bool.and_eq_true, decide_eq_true_eq, decide_eq_true_eq, Dec.elapsed]

/-- Settles O25: where the timeout changes anything its guard holds, so the buffer is not empty, and R27 item 3 says
where that is. -/
theorem timeoutFiresOnlyInDataFrames : Obligations.TimeoutFiresOnlyInDataFrames := by
  intro d now hinv hchanges
  have hguard : d.timedOut now = true := by
    by_contra hnot
    exact hchanges (if_neg hnot)
  obtain ⟨hlen, -⟩ := (d.timedOut_eq_true_iff now).1 hguard
  obtain ⟨hframe, hdata⟩ := hinv.nonempty hlen
  exact ⟨hframe, hdata, by rwa [Dec.payload_length]⟩

/-! ### Streams -/

@[simp] theorem Dec.feed_nil (d : Dec) : d.feed [] = (d, []) := rfl

theorem Dec.feed_cons (d : Dec) (b : Byte) (rest : List Byte) :
    d.feed (b :: rest) = (((d.step b).1.feed rest).1, (d.step b).2.toList ++ ((d.step b).1.feed rest).2) := rfl

/-- A byte whose step is known. -/
theorem Dec.feed_cons_of_step {d d' : Dec} {b : Byte} {out : Option Frame} (h : d.step b = (d', out))
    (rest : List Byte) : d.feed (b :: rest) = ((d'.feed rest).1, out.toList ++ (d'.feed rest).2) := by
  rw [Dec.feed_cons, h]

theorem Dec.feed_append (d : Dec) (xs ys : List Byte) :
    d.feed (xs ++ ys) = (((d.feed xs).1.feed ys).1, (d.feed xs).2 ++ ((d.feed xs).1.feed ys).2) := by
  induction xs generalizing d with
  | nil => rfl
  | cons x xs ih => simp [Dec.feed_cons, ih]

/-- A stream on each of whose bytes the decoder stays as it is: the emissions of the bytes, one by one. -/
theorem Dec.feed_of_stays {d : Dec} {xs : List Byte} (emit : Byte → Option Frame)
    (h : ∀ b ∈ xs, d.step b = (d, emit b)) : d.feed xs = (d, xs.filterMap emit) := by
  induction xs with
  | nil => rfl
  | cons x xs ih =>
    rw [Dec.feed_cons, h x (by simp), ih fun b hb => h b (by simp [hb])]
    cases hx : emit x <;> simp [hx]

/-- A stream of which no byte changes the decoder or emits. -/
theorem Dec.feed_of_silent {d : Dec} {xs : List Byte} (h : ∀ b ∈ xs, d.step b = (d, none)) : d.feed xs = (d, []) := by
  rw [Dec.feed_of_stays (fun _ => none) h, List.filterMap_none]

/-- Outside a frame everything up to the next delimiter is dropped (R137). -/
theorem Dec.feed_of_idle {d : Dec} {xs : List Byte} (hidle : d.inFrame = false) (hxs : ∀ b ∈ xs, b ≠ 0xC0) :
    d.feed xs = (d, []) :=
  Dec.feed_of_silent fun b hb => Dec.step_of_guard (t := .dropIdle) ⟨hxs b hb, hidle⟩

/-- With the buffer full everything up to the next delimiter is dropped (R136). -/
theorem Dec.feed_of_full {d : Dec} {xs : List Byte} (hframe : d.inFrame = true)
    (hfull : ¬ d.len.toNat < Config.bufMax) (hxs : ∀ b ∈ xs, b ≠ 0xC0) : d.feed xs = (d, []) :=
  Dec.feed_of_silent fun b hb => Dec.step_of_guard (t := .dropFull) ⟨hxs b hb, hframe, hfull⟩

/-! ### The escaped payload (R101, R106) -/

theorem fend_not_mem_esc1 (b : Byte) : (0xC0 : Byte) ∉ esc1 b := by
  rw [esc1_eq]
  split_ifs with hFend hFesc
  · decide
  · decide
  · simpa [eq_comm] using hFend

theorem fend_not_mem_escape (payload : List Byte) : (0xC0 : Byte) ∉ escape payload := by
  induction payload with
  | nil => simp
  | cons b rest ih =>
    rw [escape_cons, List.mem_append, not_or]
    exact ⟨fend_not_mem_esc1 b, ih⟩

theorem ne_fend_of_mem_escape {payload : List Byte} : ∀ b ∈ escape payload, b ≠ 0xC0 :=
  fun _ hb he => fend_not_mem_escape payload (he ▸ hb)

/-- In an escaped payload each 0xDB is followed by 0xDC or 0xDD (R106). -/
theorem escape_fesc_followed (payload : List Byte) (n : Nat) (h : (escape payload)[n]? = some (0xDB : Byte)) :
    (escape payload)[n + 1]? = some (0xDC : Byte) ∨ (escape payload)[n + 1]? = some (0xDD : Byte) := by
  induction payload generalizing n with
  | nil => simp at h
  | cons b rest ih =>
    rw [escape_cons, esc1_eq] at h ⊢
    split_ifs at h ⊢ with hFend hFesc
    · match n with
      | 0 => simp
      | 1 => simp at h
      | n + 2 => exact ih n h
    · match n with
      | 0 => simp
      | 1 => simp at h
      | n + 2 => exact ih n h
    · match n with
      | 0 => simp at h; exact absurd h hFesc
      | n + 1 => exact ih n h

/-- Settles O28: by induction on the payload, one case per branch of `esc1`. -/
theorem escapedPayloadShape : Obligations.EscapedPayloadShape := fun payload =>
  ⟨fend_not_mem_escape payload, escape_fesc_followed payload⟩

/-- A payload without reserved bytes is its own escape (R102). -/
theorem escape_of_unreserved {payload : List Byte} (h : ∀ b ∈ payload, b ≠ 0xC0 ∧ b ≠ 0xDB) :
    escape payload = payload := by
  induction payload with
  | nil => rfl
  | cons b rest ih =>
    obtain ⟨hFend, hFesc⟩ := h b (by simp)
    rw [escape_cons, esc1_eq, if_neg hFend, if_neg hFesc, ih fun c hc => h c (by simp [hc])]
    rfl

/-! ### Opening a frame and its selector -/

/-- The decoder inside a frame at its selector position, or with the selector stored (R125, R126). -/
def Dec.started (d : Dec) (c : Byte) : Dec := { d with inFrame := true, escapePending := false, cmd := c, len := 0 }

/-- A delimiter that closes no DATA frame opens one (R125). -/
theorem Dec.step_fend_of_not_data {d : Dec} (h : ¬(d.inFrame = true ∧ d.cmd = 0x00)) :
    d.step 0xC0 = (d.started 0xFE, none) :=
  Dec.step_of_guard (t := .openFrame) ⟨h, rfl⟩

/-- A delimiter in a DATA frame closes it (R124). -/
theorem Dec.step_fend_of_data {d : Dec} (hframe : d.inFrame = true) (hdata : d.cmd = 0x00) :
    d.step 0xC0 = ((d.setFsm .idle).clear, some ⟨0x00, d.payload⟩) :=
  Dec.step_of_guard (t := .close) ⟨hframe, hdata, rfl⟩

/-- The byte in selector position becomes the command (R126). -/
theorem Dec.step_started_selector (d : Dec) {c : Byte} (hc : c ≠ 0xC0) :
    (d.started 0xFE).step c = (d.started c, none) :=
  Dec.step_of_guard (t := .sel) ⟨hc, rfl, by simp [Dec.started, Config.bufMax], rfl, rfl⟩

/-- The first two bytes of a frame, where no DATA frame is open. -/
theorem Dec.feed_fend_selector {d : Dec} {c : Byte} (h : ¬(d.inFrame = true ∧ d.cmd = 0x00)) (hc : c ≠ 0xC0) :
    d.feed [0xC0, c] = (d.started c, []) := by
  rw [Dec.feed_cons_of_step (Dec.step_fend_of_not_data h), Dec.feed_cons_of_step (d.step_started_selector hc)]
  rfl

/-- A whole frame whose command is no delimiter, where no DATA frame is open: its payload, then the closing delimiter. -/
theorem Dec.feed_kissEncode {d : Dec} {c : Byte} (payload : List Byte) (h : ¬(d.inFrame = true ∧ d.cmd = 0x00))
    (hc : c ≠ 0xC0) :
    d.feed (kissEncode c payload) =
      ((((d.started c).feed (escape payload)).1.step 0xC0).1,
        ((d.started c).feed (escape payload)).2 ++ (((d.started c).feed (escape payload)).1.step 0xC0).2.toList) := by
  have hsplit : kissEncode c payload = [0xC0, c] ++ (escape payload ++ [0xC0]) := by
    rw [kissEncode_eq]; simp
  rw [hsplit, Dec.feed_append, Dec.feed_fend_selector h hc, Dec.feed_append]
  simp [Dec.feed_cons]

/-! ### A DATA frame -/

/-- The decoder inside a DATA frame with no escape pending and `payload` assembled so far. -/
structure Dec.Receiving (d : Dec) (payload : List Byte) : Prop where
  inFrame : d.inFrame = true
  data : d.cmd = 0x00
  unescaped : d.escapePending = false
  memory : Mem.wf d.buf
  assembled : d.payload = payload

theorem Dec.Receiving.len {d : Dec} {p : List Byte} (h : d.Receiving p) : d.len.toNat = p.length := by
  rw [← h.assembled, Dec.payload_length]

/-- The frame begins with nothing assembled. -/
theorem Dec.Receiving.started {d : Dec} (h : Mem.wf d.buf) : (d.started 0x00).Receiving [] :=
  ⟨rfl, rfl, rfl, h, rfl⟩

/-- An append adds its byte, whatever the escape flag was (R129, R130). -/
theorem Dec.Receiving.append {d : Dec} {p : List Byte} (h : d.Receiving p) (hroom : d.len.toNat < Config.bufMax)
    (b : Byte) : (d.append b).Receiving (p ++ [b]) :=
  ⟨h.inFrame, h.data, h.unescaped, Mem.write_wf h.memory hroom, by rw [Dec.append_payload h.memory hroom, h.assembled]⟩

/-- An escaped pair is consumed into one byte (R128, R129). -/
theorem Dec.Receiving.feed_pair {d : Dec} {p : List Byte} (h : d.Receiving p) (hroom : d.len.toNat < Config.bufMax)
    {x : Byte} (hFend : x ≠ 0xC0) (hFesc : x ≠ 0xDB) : d.feed [0xDB, x] = (d.append (unesc x), []) := by
  have hfirst : d.step 0xDB = ({ d with escapePending := true }, none) :=
    Dec.step_of_guard (t := .fesc) ⟨rfl, h.inFrame, hroom, h.data⟩
  have hsecond : ({ d with escapePending := true } : Dec).step x =
      ({ d.append (unesc x) with escapePending := false }, none) :=
    Dec.step_of_guard (t := .unesc) ⟨hFend, hFesc, h.inFrame, hroom, h.data, rfl⟩
  have hflag : ({ d.append (unesc x) with escapePending := false } : Dec) = d.append (unesc x) := by
    rw [Dec.append, ← h.unescaped]
  rw [Dec.feed_cons_of_step hfirst, Dec.feed_cons_of_step hsecond, hflag]
  rfl

/-- With room the escape of a byte appends that byte (R128 to R131). -/
theorem Dec.Receiving.feed_esc1 {d : Dec} {p : List Byte} (h : d.Receiving p) (hroom : d.len.toNat < Config.bufMax)
    (b : Byte) : d.feed (esc1 b) = (d.append b, []) := by
  rw [esc1_eq]
  split_ifs with hFend hFesc
  · rw [hFend, h.feed_pair hroom (by decide) (by decide)]; rfl
  · rw [hFesc, h.feed_pair hroom (by decide) (by decide)]; rfl
  · have hplain : d.step b = (d.append b, none) :=
      Dec.step_of_guard (t := .plain) ⟨hFend, hFesc, h.inFrame, hroom, h.data, h.unescaped⟩
    simp [Dec.feed_cons, hplain]

/-- The escaped rest of a payload is assembled up to `BUF_MAX` bytes and emits nothing (R107, R91). -/
theorem Dec.Receiving.feed_escape {d : Dec} {p : List Byte} (h : d.Receiving p) (hlen : p.length ≤ Config.bufMax)
    (rest : List Byte) :
    (d.feed (escape rest)).2 = [] ∧ (d.feed (escape rest)).1.Receiving ((p ++ rest).take Config.bufMax) := by
  induction rest generalizing d p with
  | nil =>
    rw [List.append_nil, List.take_of_length_le hlen]
    exact ⟨rfl, h⟩
  | cons b rest ih =>
    by_cases hroom : d.len.toNat < Config.bufMax
    · have hlen' : (p ++ [b]).length ≤ Config.bufMax := by
        rw [h.len] at hroom
        simpa using hroom
      obtain ⟨hsilent, hreceiving⟩ := ih (h.append hroom b) hlen'
      rw [escape_cons, Dec.feed_append, h.feed_esc1 hroom]
      exact ⟨hsilent, by simpa using hreceiving⟩
    · have hfull : p.length = Config.bufMax := by
        rw [h.len] at hroom
        omega
      rw [Dec.feed_of_full h.inFrame hroom ne_fend_of_mem_escape, List.take_append_of_le_length hfull.ge,
        List.take_of_length_le hlen]
      exact ⟨rfl, h⟩

/-- The encoding of a DATA frame, where no DATA frame is open: nothing before its last byte, there the payload up to
`BUF_MAX` bytes, and the decoder is IDLE and empty (R91, R107). -/
theorem Dec.feed_data_frame {d : Dec} (payload : List Byte) (hmem : Mem.wf d.buf)
    (h : ¬(d.inFrame = true ∧ d.cmd = 0x00)) :
    (d.feed ([0xC0, 0x00] ++ escape payload)).2 = [] ∧
    (d.feed (kissEncode 0x00 payload)).2 = [⟨0x00, payload.take Config.bufMax⟩] ∧
    (d.feed (kissEncode 0x00 payload)).1.fsm = some .idle ∧
    (d.feed (kissEncode 0x00 payload)).1.len.toNat = 0 := by
  obtain ⟨hsilent, hreceiving⟩ := (Dec.Receiving.started hmem).feed_escape (Nat.zero_le _) payload
  have hclose := Dec.step_fend_of_data hreceiving.inFrame hreceiving.data
  rw [Dec.feed_append, Dec.feed_fend_selector h (by decide), Dec.feed_kissEncode payload h (by decide), hclose, hsilent,
    hreceiving.assembled]
  exact ⟨rfl, rfl, rfl, rfl⟩

/-- Between the delimiter that closes a DATA frame and the next one everything is lost, and that one opens (R251). -/
theorem Dec.feed_after_close {d : Dec} {lost : List Byte} (hframe : d.inFrame = true) (hdata : d.cmd = 0x00)
    (hlost : ∀ b ∈ lost, b ≠ 0xC0) :
    d.feed ([0xC0] ++ lost ++ [0xC0]) = (((d.setFsm .idle).clear).started 0xFE, [⟨0x00, d.payload⟩]) := by
  have hclose := Dec.step_fend_of_data hframe hdata
  have hdropped : ((d.setFsm .idle).clear).feed lost = ((d.setFsm .idle).clear, []) := Dec.feed_of_idle rfl hlost
  have hopen : ((d.setFsm .idle).clear).step 0xC0 = (((d.setFsm .idle).clear).started 0xFE, none) :=
    Dec.step_fend_of_not_data (by simp)
  rw [List.append_assoc, List.singleton_append, Dec.feed_cons_of_step hclose, Dec.feed_append, hdropped,
    Dec.feed_cons_of_step hopen]
  rfl

/-- Settles O22. -/
theorem sharedDelimiterLosesTheFrame : Obligations.SharedDelimiterLosesTheFrame := by
  intro d lost hframe hdata hlost
  rw [Dec.feed_after_close hframe hdata hlost]
  exact ⟨rfl, rfl⟩

/-- Settles O18: outside a DATA frame the payload is assembled whole, since `BUF_MAX` bytes hold it; inside one the
first delimiter closes, and the new frame is what is lost up to the next. -/
theorem dataFrameRoundTrip : Obligations.DataFrameRoundTrip := by
  refine fun d payload hmem hlen => ⟨fun hnotData => ?_, fun ⟨hframe, hdata⟩ => ?_⟩
  · have h := Dec.feed_data_frame payload hmem hnotData
    rwa [List.take_of_length_le hlen] at h
  · have hlost : ∀ b ∈ (0x00 : Byte) :: escape payload, b ≠ 0xC0 :=
      List.forall_mem_cons.2 ⟨by decide, ne_fend_of_mem_escape⟩
    have hsplit : kissEncode 0x00 payload = [0xC0] ++ (0x00 :: escape payload) ++ [0xC0] := rfl
    rw [hsplit, Dec.feed_after_close hframe hdata hlost]
    exact ⟨rfl, rfl, rfl⟩

/-- Settles O19: the assembly stops at `BUF_MAX` bytes, an escape completing into the last slot; a payload without
reserved bytes is its own escape. -/
theorem oversizeFrameIsTruncated : Obligations.OversizeFrameIsTruncated := by
  intro d payload hmem _ hnotData
  obtain ⟨-, hframe, hidle, -⟩ := Dec.feed_data_frame payload hmem hnotData
  exact ⟨hframe, hidle, fun hplain => by rw [kissEncode_eq, escape_of_unreserved hplain]; rfl⟩

/-! ### Frames of other commands -/

/-- In a frame of a command without a rule of its own no byte but the delimiter does anything (R135). -/
theorem Dec.step_started_ignored (d : Dec) {b c : Byte} (hb : b ≠ 0xC0) (hunknown : c ≠ 0xFE) (hdata : c ≠ 0x00)
    (hpeak : c ≠ 0x12) : (d.started c).step b = (d.started c, none) :=
  Dec.step_of_guard (t := .ignore)
    ⟨hb, rfl, by simp [Dec.started, Config.bufMax], fun h => hunknown h.2, hdata, hpeak⟩

/-- In an AUDIO_PEAK frame each byte but the delimiter is emitted (R133). -/
theorem Dec.step_started_peak (d : Dec) {b : Byte} (hb : b ≠ 0xC0) :
    (d.started 0x12).step b = (d.started 0x12, some ⟨0x12, [b]⟩) :=
  Dec.step_of_guard (t := .peak) ⟨hb, rfl, by simp [Dec.started, Config.bufMax], rfl⟩

/-- Settles O20: the escaped payload holds no delimiter, so its bytes are ignored, or emitted one by one; the closing
delimiter opens the next frame. -/
theorem otherFramesDoNotRoundTrip : Obligations.OtherFramesDoNotRoundTrip := by
  refine fun d c payload hnotData => ⟨fun hFend hunknown hdata hpeak => ?_, ?_⟩
  · have hignored : (d.started c).feed (escape payload) = (d.started c, []) :=
      Dec.feed_of_silent fun b hb => d.step_started_ignored (ne_fend_of_mem_escape b hb) hunknown hdata hpeak
    rw [Dec.feed_kissEncode payload hnotData hFend, hignored, Dec.step_fend_of_not_data fun h => hdata h.2]
    rfl
  · have hreported : (d.started 0x12).feed (escape payload) =
        (d.started 0x12, (escape payload).filterMap fun b => some ⟨0x12, [b]⟩) :=
      Dec.feed_of_stays _ fun b hb => d.step_started_peak (ne_fend_of_mem_escape b hb)
    rw [Dec.feed_kissEncode payload hnotData (by decide), hreported,
      Dec.step_fend_of_not_data (by simp [Dec.started])]
    simp

/-- Settles O21: 0xFE in selector position stores the command the opened frame already has (R126, R152). -/
theorem unknownSelectorIsTransparent : Obligations.UnknownSelectorIsTransparent := by
  intro d n stream hnotData
  have hopen : d.feed [0xC0] = (d.started 0xFE, []) := Dec.feed_cons_of_step (Dec.step_fend_of_not_data hnotData) []
  have hrun : (d.started 0xFE).feed (List.replicate n 0xFE) = (d.started 0xFE, []) :=
    Dec.feed_of_silent fun b hb => by
      rw [List.eq_of_mem_replicate hb]
      exact d.step_started_selector (by decide)
  rw [List.append_assoc, Dec.feed_append, Dec.feed_append _ (List.replicate n 0xFE), Dec.feed_append d [0xC0] stream,
    hopen, hrun]
  rfl

end Sys2Proof.Machine

namespace Sys2Proof.Machine

/-! The rows that a received byte is (spec/41_decoder.md sections 1 and 2, spec/43_receive_loop.md section 1): SPECIAL and
CMD by the byte, RXBYTE by the transition. -/

/-! ### The rows' meanings -/

/-- A transition row runs where its transition is selected for a byte the row takes. -/
theorem exec_toInstr {t : Transition} {b : Byte} (hbyte : rxByteOk t b = true) (s : State) :
    exec (t.toInstr b) s = selectedRx t b s := by
  cases t
  case close => obtain rfl := eq_of_beq hbyte; rfl
  case openFrame => obtain rfl := eq_of_beq hbyte; rfl
  case fesc => obtain rfl := eq_of_beq hbyte; rfl
  all_goals rfl

/-- Every row that a received byte is fires, where it answers with a next state, a transition whose guard holds. -/
theorem exec_isReceived_next {i : Instr} {s t : State} (hrow : i.isReceived = true) (h : exec i s = .next t) :
    ∃ x b, s.dec.guard b x ∧ fireRx x b s = .next t := by
  cases i with
  | fend | fesc | tfend | tfesc | data | txdelay | p | slottime | txtail | fullduplex | sethardware | ready | audioPeak
  | enDiags | unknown | returnCmd | unassigned _ => exact ⟨_, _, receiveByte_next h⟩
  | rxClose | rxOpen | rxSel _ | rxFesc | rxUnesc _ | rxPlain _ | rxPeak _ | rxIgnore _ | rxDropFull _
  | rxDropIdle _ => exact ⟨_, _, selectedRx_next h⟩
  | _ => nomatch hrow

/-- The transition row and the SPECIAL or CMD row of the byte both fire the transition whose guard holds. -/
theorem exec_rows_of_guard {t : Transition} {b : Byte} {s : State} (hguard : s.dec.guard b t) :
    exec (t.toInstr b) s = fireRx t b s ∧ exec (decodeByte b) s = fireRx t b s := by
  have hselect := (s.dec.select_eq_iff b t).2 hguard
  constructor
  · rw [← hselect, exec_toInstr_of_select, receiveByte, hselect]
  · rw [exec_decodeByte, receiveByte_of_guard hguard]

/-- Settles O5. -/
theorem receivedByteRunsTheSelectedRow : Obligations.ReceivedByteRunsTheSelectedRow := fun b s => by
  rw [exec_decodeByte, exec_toInstr_of_select]

/-- Settles O6: a row tests the selection first. -/
theorem unselectedRowIsRefused : Obligations.UnselectedRowIsRefused := fun t b s hbyte hselect => by
  rw [exec_toInstr hbyte, selectedRx, if_neg hselect]

/-! ### Transitions that emit nothing -/

/-- Settles O9: RX.SEL is the selected transition of every byte but 0xC0, and each row is the receipt of its byte. -/
theorem selectorByteBecomesTheCommand : Obligations.SelectorByteBecomesTheCommand := by
  intro s hframe hempty hunknown
  have hrows (b : Byte) (hb : b ≠ 0xC0) :=
    exec_rows_of_silent_guard (s := s) (t := .sel) (b := b)
      ⟨hb, hframe, by rw [hempty]; decide, hempty, hunknown⟩ (by decide) (by decide)
  have hbyte (b : Byte) (hb : b ≠ 0xC0) : receiveByte b s = .next { s with dec := { s.dec with cmd := b } } := by
    rw [← exec_decodeByte]
    exact (hrows b hb).2
  have hunassigned (b : Byte) (hb : isUnassigned b = true) : b ≠ 0xC0 := by
    rintro rfl
    exact absurd hb (by decide)
  exact ⟨fun b hb => (hrows b hb).1, hbyte _ (by decide), hbyte _ (by decide), hbyte _ (by decide),
    hbyte _ (by decide), hbyte _ (by decide), hbyte _ (by decide), hbyte _ (by decide), hbyte _ (by decide),
    hbyte _ (by decide), hbyte _ (by decide), hbyte _ (by decide), hbyte _ (by decide), hbyte _ (by decide),
    hbyte _ (by decide), hbyte _ (by decide), fun b hb => hbyte b (hunassigned b hb)⟩

/-- Settles O12: RX.PLAIN is selected for `b`, TFEND and TFESC alike (R130, R132). -/
theorem plainByteIsAppended : Obligations.PlainByteIsAppended := by
  intro s b hFend hFesc hframe hroom hdata hunescaped
  have happends (c : Byte) (hcFend : c ≠ 0xC0) (hcFesc : c ≠ 0xDB) :=
    exec_rows_of_silent_guard (s := s) (t := .plain) (b := c)
      ⟨hcFend, hcFesc, hframe, hroom, hdata, hunescaped⟩ (by decide) (by decide)
  exact ⟨(happends b hFend hFesc).1, (happends b hFend hFesc).2, (happends 0xDC (by decide) (by decide)).2,
    (happends 0xDD (by decide) (by decide)).2⟩

/-- Settles O15: the two drops are selected with the buffer full and outside a frame, and write nothing. -/
theorem byteIsDroppedWhenFullOrOutside : Obligations.ByteIsDroppedWhenFullOrOutside := fun s b hFend =>
  ⟨fun hframe hfull =>
    exec_rows_of_silent_guard (s := s) (t := .dropFull) (b := b) ⟨hFend, hframe, hfull.not_lt⟩ (by decide) (by decide),
  fun hidle =>
    exec_rows_of_silent_guard (s := s) (t := .dropIdle) (b := b) ⟨hFend, hidle⟩ (by decide) (by decide)⟩

/-! ### Transitions with a callback -/

/-- The decoder and the callback of RX.CLOSE (R124, R194). -/
theorem exec_rows_of_close {s : State} (hframe : s.dec.inFrame = true) (hdata : s.dec.cmd = 0x00)
    (hlen : s.dec.len.toNat ≤ Config.bufMax) :
    let closed : State := { s with dec := { s.dec with inFrame := false, escapePending := false, len := 0 } }
    exec .rxClose s = closed.makeCallback (.onDataFrame s.dec.payload) ∧
    exec .fend s = closed.makeCallback (.onDataFrame s.dec.payload) := by
  have hfire : fireRx .close 0xC0 s = _ := if_neg (by simp [Dec.inRange, hlen])
  have hrows := exec_rows_of_guard (s := s) (t := .close) (b := 0xC0) ⟨hframe, hdata, rfl⟩
  rw [hfire] at hrows
  exact hrows

/-- The callback of RX.PEAK, which leaves the decoder alone (R133, R195). -/
theorem exec_rows_of_peak {s : State} {b : Byte} (hFend : b ≠ 0xC0) (hframe : s.dec.inFrame = true)
    (hroom : s.dec.len.toNat < Config.bufMax) (hpeak : s.dec.cmd = 0x12) :
    exec (.rxPeak b) s = s.makeCallback (.onPeakValue (sext8 b)) ∧
    exec (decodeByte b) s = s.makeCallback (.onPeakValue (sext8 b)) :=
  exec_rows_of_guard (s := s) (t := .peak) (b := b) ⟨hFend, hframe, hroom, hpeak⟩

/-- The signed reading of R12. -/
theorem sext8_eq (b : Byte) : sext8 b = if b.toNat < 128 then (b.toNat : Int) else (b.toNat : Int) - 256 := by
  have hhalf : 2 * b.toNat < 2 ^ 8 ↔ b.toNat < 128 := by omega
  simp only [sext8, BitVec.toInt, hhalf]
  rfl

/-- Settles O7. -/
theorem closeDeliversThePayload : Obligations.CloseDeliversThePayload := by
  intro s rest hframe hdata hlen hanswer
  obtain ⟨hrow, hbyte⟩ := exec_rows_of_close hframe hdata hlen
  exact ⟨hrow.trans (State.makeCallback_returned hanswer), hbyte.trans (State.makeCallback_returned hanswer)⟩

/-- Settles O13. -/
theorem peakByteIsReported : Obligations.PeakByteIsReported := by
  intro s b rest hFend hframe hroom hpeak hanswer
  obtain ⟨hrow, hbyte⟩ := exec_rows_of_peak hFend hframe hroom hpeak
  rw [sext8_eq] at hrow hbyte
  exact ⟨hrow.trans (State.makeCallback_returned hanswer), hbyte.trans (State.makeCallback_returned hanswer)⟩

/-- Settles O41: the answer of the callback decides, after the decoder's writes (R193, R199). -/
theorem raisingCallbackEndsTheSession : Obligations.RaisingCallbackEndsTheSession := by
  refine fun s answers => ⟨fun b hFend hframe hroom hpeak => ?_, fun hframe hdata hlen => ?_⟩
  · obtain ⟨hrow, hbyte⟩ := exec_rows_of_peak hFend hframe hroom hpeak
    rw [hrow, hbyte]
    exact ⟨fun e hraised => ⟨State.makeCallback_raised hraised, State.makeCallback_raised hraised⟩,
      fun hnever => ⟨State.makeCallback_neverReturns hnever, State.makeCallback_neverReturns hnever⟩⟩
  · obtain ⟨hrow, hbyte⟩ := exec_rows_of_close hframe hdata hlen
    rw [hrow, hbyte]
    exact ⟨fun e hraised => ⟨State.makeCallback_raised hraised, State.makeCallback_raised hraised⟩,
      fun hnever => ⟨State.makeCallback_neverReturns hnever, State.makeCallback_neverReturns hnever⟩⟩

/-! ### What the rows leave alone -/

@[simp] theorem Dec.fire_lastByteTimestamp (d : Dec) (t : Transition) (b : Byte) :
    (d.fire t b).lastByteTimestamp = d.lastByteTimestamp := by
  cases t <;> rfl

/-- A transition changes no byte of memory but the one at address `dec.len` (R51). -/
theorem Dec.read_fire_other (d : Dec) (t : Transition) (b : Byte) {a : Nat} (ha : a ≠ d.len.toNat) :
    Mem.read (d.fire t b).buf a = Mem.read d.buf a := by
  cases t
  case unesc => exact Mem.read_write_other d.buf _ ha
  case plain => exact Mem.read_write_other d.buf _ ha
  all_goals rfl

/-- A step emits at most one frame, and a frame has at most one callback (R122, R194, R195). -/
theorem emitted_callbacks_length_le (o : Option Frame) : (o.bind Frame.callback).toList.length ≤ 1 := by
  cases o.bind Frame.callback <;> simp

/-- Settles O51. -/
theorem receivedRowsFrame : Obligations.ReceivedRowsFrame := by
  intro i s hrow t hnext
  obtain ⟨x, b, -, hfire⟩ := exec_isReceived_next hrow hnext
  obtain ⟨hdec, hqueue, hclock, hout, hses⟩ := fireRx_next hfire
  rw [hdec, hout]
  refine ⟨Dec.fire_lastByteTimestamp _ _ _, hses.imp_right ?_, hqueue, hclock, rfl, rfl, rfl,
    ⟨_, rfl, emitted_callbacks_length_le _⟩, fun a ha => Dec.read_fire_other _ _ _ ha⟩
  rintro ⟨c, e, hmade, hraised, hses⟩
  exact ⟨c, e, by rw [hmade]; rfl, hraised, hses⟩

/-- The decoder after a transition row (R123). -/
theorem selectedRx_next_dec {t : Transition} {b : Byte} {s s' : State} (h : selectedRx t b s = .next s') :
    s'.dec = s.dec.fire t b :=
  (fireRx_next (selectedRx_next h).2).1

/-- Settles O52: each row's next state holds its own transition's writes. -/
theorem transitionRowsFrame : Obligations.TransitionRowsFrame := by
  refine fun s b => ⟨fun t h => ?close, fun t h => ?openFrame, fun t h => ?sel, fun t h => ?fesc, fun t h => ?unesc,
    fun t h => ?plain, fun _ h => selectedRx_next_dec h, fun _ h => selectedRx_next_dec h,
    fun _ h => selectedRx_next_dec h, fun _ h => selectedRx_next_dec h⟩
  all_goals dsimp only; rw [selectedRx_next_dec h]
  case close => exact ⟨rfl, fun a => rfl⟩
  case openFrame => exact fun a => rfl
  case sel => exact ⟨rfl, rfl, rfl, fun a => rfl⟩
  case fesc => exact ⟨rfl, rfl, rfl, fun a => rfl⟩
  case unesc => exact ⟨rfl, rfl, fun a ha => Dec.read_fire_other _ .unesc _ ha⟩
  case plain => exact ⟨rfl, rfl, rfl, fun a ha => Dec.read_fire_other _ .plain _ ha⟩

/-! ### The transition rows' bytes -/

/-- A row of a transition with its byte is that transition's row for the byte, and its bytes are the byte (R93). -/
theorem eq_toInstr_of_rxRow {i : Instr} {t : Transition} {b : Byte} (h : i.rxRow = some (t, b)) :
    i = t.toInstr b ∧ encode i = [b] := by
  cases i <;> cases h <;> exact ⟨rfl, rfl⟩

/-- Two transitions have the same row for a byte only if they are one. -/
theorem Transition.toInstr_inj {t u : Transition} {b : Byte} : t.toInstr b = u.toInstr b ↔ t = u := by
  constructor
  · cases t <;> cases u <;> simp [Transition.toInstr]
  · rintro rfl
    rfl

/-- A decoder that selects a transition: inside a frame or not, with a command, an escape and a length. -/
def Dec.selecting : Transition → Dec
  | .close => { Dec.reset with inFrame := true, cmd := 0x00 }
  | .openFrame => Dec.reset
  | .sel => { Dec.reset with inFrame := true }
  | .fesc => { Dec.reset with inFrame := true, cmd := 0x00 }
  | .unesc => { Dec.reset with inFrame := true, escapePending := true, cmd := 0x00 }
  | .plain => { Dec.reset with inFrame := true, cmd := 0x00 }
  | .peak => { Dec.reset with inFrame := true, cmd := 0x12 }
  | .ignore => { Dec.reset with inFrame := true, cmd := 0x01 }
  | .dropFull => { Dec.reset with inFrame := true, cmd := 0x00, len := 611 }
  | .dropIdle => Dec.reset

theorem Dec.selecting_inv (t : Transition) : (Dec.selecting t).Inv := by
  cases t <;> exact ⟨by decide, by decide, by decide, by decide, by decide⟩

theorem rxByteOk_of_wf {i : Instr} {t : Transition} {b : Byte} (hwf : i.wf = true) (h : i.rxRow = some (t, b)) :
    rxByteOk t b = true := by
  cases i <;> cases h <;> exact hwf

/-- Every byte a row takes is selected for it somewhere (R123). -/
theorem Dec.guard_selecting {t : Transition} {b : Byte} (hbyte : rxByteOk t b = true) :
    (Dec.selecting t).guard b t := by
  cases t <;> simp only [rxByteOk, Bool.and_eq_true, bne_iff_ne, beq_iff_eq] at hbyte
  case close => exact ⟨rfl, rfl, hbyte⟩
  case openFrame => exact ⟨by decide, hbyte⟩
  case sel => exact ⟨hbyte, rfl, by decide, rfl, rfl⟩
  case fesc => exact ⟨hbyte, rfl, by decide, rfl⟩
  case unesc => exact ⟨hbyte.1, hbyte.2, rfl, by decide, rfl, rfl⟩
  case plain => exact ⟨hbyte.1, hbyte.2, rfl, by decide, rfl, rfl⟩
  case peak => exact ⟨hbyte, rfl, by decide, rfl⟩
  case ignore => exact ⟨hbyte, rfl, by decide, by decide, by decide, by decide⟩
  case dropFull => exact ⟨hbyte, rfl, by decide⟩
  case dropIdle => exact ⟨hbyte, rfl⟩

/-- Settles O56. -/
theorem decodeOfTransitionRows : Obligations.DecodeOfTransitionRows := by
  intro i t b hwf hrow
  obtain ⟨rfl, hbytes⟩ := eq_toInstr_of_rxRow hrow
  have hiff (d : Dec) : decodeRx d.inFrame d.escapePending d.cmd d.len b = t.toInstr b ↔ d.select b = t :=
    Transition.toInstr_inj
  refine ⟨hbytes, hiff, Dec.selecting t, Dec.selecting_inv t, (hiff _).2 ?_⟩
  exact ((Dec.selecting t).select_eq_iff b t).2 (Dec.guard_selecting (rxByteOk_of_wf hwf hrow))

end Sys2Proof.Machine

namespace Sys2Proof.Machine

/-! Values, frames sent, and the session commands (spec/30_encoding.md R81 to R84, spec/42_session_commands.md sections 3
and 4). -/

/-! ### Value bytes -/

theorem clamp_eq (v : Int) : clamp v Config.valMin Config.valMax = max 0 (min 255 v) := by
  simp only [clamp, Config.valMin, Config.valMax]
  omega

/-- A value byte read as a number is the clamped value (R12, R177). -/
theorem valueByte_toNat (v : Int) : ((valueByte v).toNat : Int) = max 0 (min 255 v) := by
  rw [valueByte, clamp_eq, BitVec.toNat_ofInt]
  omega

/-- Settles O29. -/
theorem valuesAreClamped : Obligations.ValuesAreClamped :=
  ⟨fun ms => valueByte_toNat (roundTicks ms), valueByte_toNat, sext8_eq⟩

/-- The value byte of a number that no clamping changes. -/
theorem valueByte_eq_ofInt {v : Int} (hmin : 0 ≤ v) (hmax : v ≤ 255) : valueByte v = BitVec.ofInt 8 v := by
  rw [valueByte, clamp_eq, min_eq_right hmax, max_eq_right hmin]

/-- Ten milliseconds in a row have the same number of ticks (R81, D13). -/
theorem ticks_eq_ofInt {ms n : Int} (hmin : 0 ≤ n) (hmax : n ≤ 255) (hlow : 10 * n ≤ ms) (hhigh : ms ≤ 10 * n + 9) :
    ticks ms = BitVec.ofInt 8 n := by
  have hround : roundTicks ms = n := by
    rw [roundTicks, Config.tickMs, Int.fdiv_eq_ediv_of_nonneg _ (by decide)]
    omega
  rw [ticks, hround, valueByte_eq_ofInt hmin hmax]

/-! ### Frames of one value (R76) -/

theorem kissEncode_fend (c : Byte) : kissEncode c [0xC0] = [0xC0, c, 0xDB, 0xDC, 0xC0] := rfl

theorem kissEncode_fesc (c : Byte) : kissEncode c [0xDB] = [0xC0, c, 0xDB, 0xDD, 0xC0] := rfl

theorem kissEncode_unreserved (c : Byte) {v : Byte} (hFend : v ≠ 0xC0) (hFesc : v ≠ 0xDB) :
    kissEncode c [v] = [0xC0, c, v, 0xC0] := by
  rw [kissEncode_eq, escape_of_unreserved (by simpa using ⟨hFend, hFesc⟩)]
  rfl

/-! ### Sending a frame whose answer is scripted -/

/-- The state after bytes were put on the wire, with the answers of `T.write` that remain. -/
def State.wrote (bytes : List Byte) (rest : List WriteAnswer) (s : State) : State :=
  { s with
    env := { s.env with writeAnswers := rest }
    out := { s.out with wire := s.out.wire ++ bytes } }

/-- Two writes are the write of the bytes of both. -/
theorem State.wrote_wrote (bytes more : List Byte) (rest last : List WriteAnswer) (s : State) :
    (s.wrote bytes rest).wrote more last = s.wrote (bytes ++ more) last := by
  simp [State.wrote]

/-- With the lock free a frame's sender writes what the transport accepts, and no register (R59, R175). -/
theorem sendFrame_of_answer {c v : Byte} {setting : Setting} {s : State} {answer : WriteAnswer}
    {rest : List WriteAnswer} (hlock : s.ses.txLock = false) (h : s.env.writeAnswers = answer :: rest) :
    sendFrame c v setting s = (writeError (kissEncode c [v]) setting answer,
      s.wrote ((kissEncode c [v]).take (sentBytes answer)) rest) := by
  have hses : { s.ses with txLock := false } = s.ses := by rw [← hlock]
  simp [sendFrame, State.write, State.drawWrite, State.setLock, State.wrote, h, hses]

/-- An instruction that is SendCommand with its error given to the caller transmits its frame whatever the transport
answers (R175, R176). -/
theorem sendsFrame_of_exec {i : Instr} {c v : Byte} {setting : Setting} {pre : State → Prop}
    (hexec : ∀ s : State, pre s → s.ses.txLock = false → exec i s = .next (finishCommand (sendFrame c v setting s))) :
    SendsFrame i c v setting pre := by
  refine fun s rest hpre hlock => ⟨fun hwhole => ?_, fun count hcount hshort => ?_, fun sent hfail => ?_⟩
  · rw [hexec s hpre hlock, sendFrame_of_answer hlock hwhole, writeError_eq_none.2 rfl, sentBytes, List.take_length]
    rfl
  · have herror : writeError (kissEncode c [v]) setting (.ok count) = some (.configurationError setting) := if_neg hcount
    rw [hexec s hpre hlock, sendFrame_of_answer hlock hshort, herror]
    rfl
  · rw [hexec s hpre hlock, sendFrame_of_answer hlock hfail]
    rfl

/-- A command in an online session with the lock free is SendCommand (R160, R178). -/
theorem callerCommand_of_online {c v : Byte} {setting : Setting} {s : State} (hon : s.ses.online = true)
    (hlock : s.ses.txLock = false) :
    callerCommand c v setting s = .next (finishCommand (sendFrame c v setting s)) := by
  simp [callerCommand, Ses.mayCommand, hon, hlock]

/-- A command outside an online session (R178). -/
theorem callerCommand_of_not_online {c v : Byte} {setting : Setting} {s : State} (hoff : s.ses.online = false) :
    callerCommand c v setting s = .refused .commandNotReady :=
  if_pos hoff

/-- An instruction that is a caller's command sends its frame in an online session. -/
theorem sendsFrame_of_callerCommand {i : Instr} {c v : Byte} {setting : Setting}
    (h : ∀ s, exec i s = callerCommand c v setting s) : SendsFrame i c v setting (fun s => s.ses.online = true) :=
  sendsFrame_of_exec fun s hon hlock => by rw [h, callerCommand_of_online hon hlock]

/-- Settles O30: the commands are `callerCommand` of their code and `ticks`; the values and frames are the rules' own. -/
theorem millisecondCommandsSendTicks : Obligations.MillisecondCommandsSendTicks := by
  refine ⟨fun ms => ⟨?preamble, ?txtail, ?slottime⟩, by decide, by decide, by decide, fun ms hlow hhigh => ?fend,
    fun ms hlow hhigh => ?fesc, fun c => ⟨kissEncode_fend c, kissEncode_fesc c, fun v => kissEncode_unreserved c⟩⟩
  case preamble => exact sendsFrame_of_callerCommand fun _ => rfl
  case txtail => exact sendsFrame_of_callerCommand fun _ => rfl
  case slottime => exact sendsFrame_of_callerCommand fun _ => rfl
  case fend => exact ticks_eq_ofInt (n := 192) (by decide) (by decide) (by omega) (by omega)
  case fesc => exact ticks_eq_ofInt (n := 219) (by decide) (by decide) (by omega) (by omega)

/-- Settles O31: each is `callerCommand` of its code and value. -/
theorem otherCommandsSendTheirValue : Obligations.OtherCommandsSendTheirValue :=
  ⟨fun _ => sendsFrame_of_callerCommand fun _ => rfl, sendsFrame_of_callerCommand fun _ => rfl,
    sendsFrame_of_callerCommand fun _ => rfl, sendsFrame_of_callerCommand fun _ => rfl,
    sendsFrame_of_callerCommand fun _ => rfl, sendsFrame_of_callerCommand fun _ => rfl⟩

/-- Settles O32: SendCommand tests the lock alone. -/
theorem sendCommandWritesOneFrame : Obligations.SendCommandWritesOneFrame := fun c v setting =>
  sendsFrame_of_exec fun s _ hlock => if_neg (by simp [hlock])

/-- Settles O33. -/
theorem commandsAreRefusedOffline : Obligations.CommandsAreRefusedOffline := fun _ hoff =>
  ⟨fun _ => ⟨callerCommand_of_not_online hoff, callerCommand_of_not_online hoff, callerCommand_of_not_online hoff,
      callerCommand_of_not_online hoff⟩,
    fun _ => callerCommand_of_not_online hoff, callerCommand_of_not_online hoff, callerCommand_of_not_online hoff,
    callerCommand_of_not_online hoff⟩

end Sys2Proof.Machine

namespace Sys2Proof.Machine

/-! Bytes to instructions and back (spec/30_encoding.md sections 1, 3, 4; the records of log 8): `decode` by the kinds of
bytes it tells apart, and its agreement with `encode`. -/

/-! ### A received byte -/

theorem decode_singleton (b : Byte) : decode [b] = .ok (decodeByte b) := rfl

/-- `UNASSIGNED` is what is left of the bytes after the sixteen named rows (R86). -/
theorem decodeByte_of_isUnassigned {b : Byte} (h : isUnassigned b = true) : decodeByte b = .unassigned b := by
  simp only [isUnassigned, namedSelectors, specialBytes, Bool.and_eq_true, Bool.not_eq_true', List.contains_eq_mem,
    decide_eq_false_iff_not, List.mem_cons, not_or] at h
  simp [decodeByte, h]

/-- A byte alone is a SPECIAL or CMD row whose operand, if it has one, is no named byte. -/
theorem decodeByte_wf (b : Byte) : (decodeByte b).wf = true ∧ (decodeByte b).rxRow = none := by
  by_cases h : isUnassigned b = true
  · rw [decodeByte_of_isUnassigned h]
    exact ⟨h, rfl⟩
  · have hnamed : b ∈ namedSelectors ++ specialBytes := by
      simpa [isUnassigned, or_iff_not_imp_left] using h
    exact (by decide : ∀ b ∈ namedSelectors ++ specialBytes, (decodeByte b).wf = true ∧ (decodeByte b).rxRow = none)
      b hnamed

/-- The rows that are no received byte have no condition on their operands. -/
theorem wf_of_not_isReceived {i : Instr} (h : i.isReceived = false) : i.wf = true ∧ i.rxRow = none := by
  cases i with
  | idleTimeout _ | setPreamble _ | setTxTail _ | setPersistence _ | setSlotTime _ | setFlowControl _
  | enableDiagnostics | disableDiagnostics | askForPeak | openSession _ | sendCommand _ _ _ | encodeFrame _ _ =>
    exact ⟨rfl, rfl⟩
  | _ => nomatch h

/-! ### A single-value frame -/

/-- A value byte's operand of a set command, read as a signed number (R81, R82). -/
theorem msOperand_toInt (v : Byte) : (msOperand v).toInt = 10 * v.toNat := by
  have hlt := v.isLt
  rw [msOperand, BitVec.toInt_ofInt, Config.tickMs, show 2 ^ Config.cfgW = 4294967296 from rfl]
  exact Int.bmod_eq_of_le (by omega) (by omega)

theorem rawOperand_toInt (v : Byte) : (rawOperand v).toInt = v.toNat := by
  have hlt := v.isLt
  rw [rawOperand, BitVec.toInt_ofInt, show 2 ^ Config.cfgW = 4294967296 from rfl]
  exact Int.bmod_eq_of_le (by omega) (by omega)

/-- The value byte survives its operand (R81). -/
theorem ticks_msOperand (v : Byte) : ticks (msOperand v).toInt = v := by
  have hlt := v.isLt
  rw [msOperand_toInt, ticks_eq_ofInt (n := v.toNat) (by omega) (by omega) (by omega) (by omega)]
  simp

theorem raw_rawOperand (v : Byte) : raw (rawOperand v).toInt = v := by
  have hlt := v.isLt
  rw [rawOperand_toInt, raw, valueByte_eq_ofInt (by omega) (by omega)]
  simp

/-- What a frame decodes to is the command that sends its code and value (R76, R92), a host operation. -/
theorem decodeHostOp_ok {c v : Byte} {i : Instr} (h : decodeHostOp c v = .ok i) :
    i.isReceived = false ∧ ∃ setting, ∀ s, exec i s = callerCommand c v setting s := by
  unfold decodeHostOp at h
  split_ifs at h with hc hc hc hc hc hv hv hc hv hv hc hv <;> cases h <;> subst hc <;> refine ⟨rfl, ?_⟩
  · exact ⟨.preamble, fun s => congrArg (callerCommand _ · _ s) (ticks_msOperand v)⟩
  · exact ⟨.txtail, fun s => congrArg (callerCommand _ · _ s) (ticks_msOperand v)⟩
  · exact ⟨.persistence, fun s => congrArg (callerCommand _ · _ s) (raw_rawOperand v)⟩
  · exact ⟨.slottime, fun s => congrArg (callerCommand _ · _ s) (ticks_msOperand v)⟩
  · exact ⟨.flowcontrol, fun s => hv ▸ rfl⟩
  · exact ⟨.flowcontrol, fun s => hv ▸ rfl⟩
  · exact ⟨.diagnostics, fun s => hv ▸ rfl⟩
  · exact ⟨.diagnostics, fun s => hv ▸ rfl⟩
  · exact ⟨.peak, fun s => hv ▸ rfl⟩

/-- The bytes after the opening delimiter and the command are a value's escape and the closing delimiter (R76). -/
theorem decodeHostFrame_ok {c : Byte} {rest : List Byte} {i : Instr} (h : decodeHostFrame c rest = .ok i) :
    ∃ v, 0xC0 :: c :: rest = kissEncode c [v] ∧ decodeHostOp c v = .ok i := by
  unfold decodeHostFrame at h
  split at h
  · next v e =>
    split_ifs at h with hvalue
    obtain ⟨rfl, hFend, hFesc⟩ := hvalue
    exact ⟨v, (kissEncode_unreserved c hFend hFesc).symm, h⟩
  · next x y e =>
    split_ifs at h with hTfend hTfesc
    · obtain ⟨rfl, rfl, rfl⟩ := hTfend
      exact ⟨0xC0, rfl, h⟩
    · obtain ⟨rfl, rfl, rfl⟩ := hTfesc
      exact ⟨0xDB, rfl, h⟩
  · cases h

/-- A whole frame of one value decodes by its code and value (R76). -/
theorem decode_kissEncode (c v : Byte) : decode (kissEncode c [v]) = decodeHostOp c v := by
  by_cases hFend : v = 0xC0
  · rw [hFend]; rfl
  by_cases hFesc : v = 0xDB
  · rw [hFesc]; rfl
  · rw [kissEncode_unreserved c hFend hFesc]
    exact if_pos ⟨rfl, hFend, hFesc⟩

/-! ### The model's records -/

/-- Two bytes or more that begin with no delimiter are a record. -/
theorem decode_record {tag : Byte} {rest : List Byte} (htag : tag ≠ 0xC0) (hrest : rest ≠ []) :
    decode (tag :: rest) = decodeRecord tag rest := by
  obtain ⟨b, rest, rfl⟩ := List.exists_cons_of_ne_nil hrest
  exact if_neg htag

theorem wordBytes_ne_nil {width : Nat} (hwidth : 1 ≤ wordSize width) (w : BitVec width) : wordBytes w ≠ [] :=
  List.ne_nil_of_length_pos (by rw [wordBytes_length]; omega)

/-- A record of one operand decodes to it. -/
theorem decode_wordRecord {width : Nat} {tag : Byte} {mk : BitVec width → Instr} (htag : tag ≠ 0xC0)
    (hwidth : 1 ≤ wordSize width) (hrecord : ∀ rest, decodeRecord tag rest = decodeWordRecord tag mk rest)
    (w : BitVec width) : decode (tag :: wordBytes w) = .ok (mk w) := by
  rw [decode_record htag (wordBytes_ne_nil hwidth w), hrecord, decodeWordRecord_wordBytes]

/-- The byte of a number in the range of a value byte. -/
theorem ofInt_toNat_of_inValueRange {v : Int} (h : inValueRange v = true) : ((BitVec.ofInt 8 v).toNat : Int) = v := by
  obtain ⟨hmin, hmax⟩ := (Bool.and_eq_true _ _).mp h
  have hmin : 0 ≤ v := of_decide_eq_true hmin
  have hmax : v ≤ 255 := of_decide_eq_true hmax
  rw [← valueByte_eq_ofInt hmin hmax, valueByte_toNat]
  omega

/-- A millisecond operand that has the frame's encoding is that of its value byte (R81). -/
theorem msOperand_of_isFrameMs {ms : CfgWord} (h : isFrameMs ms = true) :
    msOperand (BitVec.ofInt 8 (Int.fdiv ms.toInt Config.tickMs)) = ms := by
  simp only [isFrameMs, Bool.and_eq_true, decide_eq_true_eq] at h
  obtain ⟨hwhole, hrange⟩ := h
  rw [msOperand, ofInt_toNat_of_inValueRange hrange, Int.mul_fdiv_cancel_of_fmod_eq_zero hwhole, BitVec.ofInt_toInt]

theorem rawOperand_of_isFrameRaw {value : CfgWord} (h : isFrameRaw value = true) :
    rawOperand (BitVec.ofInt 8 value.toInt) = value := by
  rw [rawOperand, ofInt_toNat_of_inValueRange h, BitVec.ofInt_toInt]

/-- A millisecond command decodes from its frame and from its record. -/
theorem decode_encodeMs {c : Byte} {mk : CfgWord → Instr} (hc : c ≠ 0xC0)
    (hframe : ∀ v, decodeHostOp c v = .ok (mk (msOperand v)))
    (hrecord : ∀ rest, decodeRecord c rest = decodeWordRecord c mk rest) (ms : CfgWord) :
    decode (encodeMs c ms) = .ok (mk ms) := by
  unfold encodeMs
  split
  · next h => rw [decode_kissEncode, hframe, msOperand_of_isFrameMs h]
  · exact decode_wordRecord hc wordSize_cfgW_pos hrecord ms

/-- The raw command likewise. -/
theorem decode_encodeRaw {c : Byte} {mk : CfgWord → Instr} (hc : c ≠ 0xC0)
    (hframe : ∀ v, decodeHostOp c v = .ok (mk (rawOperand v)))
    (hrecord : ∀ rest, decodeRecord c rest = decodeWordRecord c mk rest) (value : CfgWord) :
    decode (encodeRaw c value) = .ok (mk value) := by
  unfold encodeRaw
  split
  · next h => rw [decode_kissEncode, hframe, rawOperand_of_isFrameRaw h]
  · exact decode_wordRecord hc wordSize_cfgW_pos hrecord value

@[simp] theorem takeFlag_flagByte (f : Bool) (rest : List Byte) : takeFlag (flagByte f :: rest) = some (f, rest) := by
  cases f <;> rfl

/-- Reading a serial parameter's bytes gives it and leaves what follows. -/
@[simp] theorem takeToken_putToken (t : Token) (rest : List Byte) :
    takeToken (putToken t ++ rest) = some (t, rest) := by
  induction t with
  | nil => cases rest <;> rfl
  | cons b t ih =>
    show takeToken (0x01 :: b :: (putToken t ++ rest)) = _
    simp [takeToken, ih]

/-- Reading a configuration's bytes gives it. -/
theorem takeConfig_putConfig (cfg : SessionConfig) : takeConfig (putConfig cfg) = some (cfg, []) := by
  have hlast := takeToken_putToken cfg.stopBits []
  rw [List.append_nil] at hlast
  simp [takeConfig, putConfig, hlast]

theorem decode_openRecord (cfg : SessionConfig) : decode (tagOpen :: putConfig cfg) = .ok (.openSession cfg) := by
  have hne : putConfig cfg ≠ [] := by simp [putConfig]
  rw [decode_record (by decide) hne]
  simp only [decodeRecord, takeConfig_putConfig]
  rfl

theorem decode_sendCommandRecord (c v : Byte) (setting : Setting) :
    decode [tagSendCommand, c, v, settingByte setting] = .ok (.sendCommand c v setting) := by
  cases setting <;> rfl

/-- Settles O55: one case per kind of bytes an instruction has. -/
theorem decodeOfEncode : Obligations.DecodeOfEncode := by
  intro i hwf hrow
  cases i with
  | fend | fesc | tfend | tfesc | data | txdelay | p | slottime | txtail | fullduplex | sethardware | ready | audioPeak
  | enDiags | unknown | returnCmd => rfl
  | unassigned b => rw [encode, decode_singleton, decodeByte_of_isUnassigned hwf]
  | idleTimeout now => exact decode_wordRecord (by decide) wordSize_timeW_pos (fun _ => rfl) now
  | setPreamble ms => exact decode_encodeMs (by decide) (fun _ => rfl) (fun _ => rfl) ms
  | setTxTail ms => exact decode_encodeMs (by decide) (fun _ => rfl) (fun _ => rfl) ms
  | setPersistence value => exact decode_encodeRaw (by decide) (fun _ => rfl) (fun _ => rfl) value
  | setSlotTime ms => exact decode_encodeMs (by decide) (fun _ => rfl) (fun _ => rfl) ms
  | setFlowControl f => cases f <;> rfl
  | enableDiagnostics | disableDiagnostics | askForPeak => rfl
  | openSession cfg => exact decode_openRecord cfg
  | sendCommand c v setting => exact decode_sendCommandRecord c v setting
  | encodeFrame c payload => rfl
  | rxClose | rxOpen | rxSel _ | rxFesc | rxUnesc _ | rxPlain _ | rxPeak _ | rxIgnore _ | rxDropFull _
  | rxDropIdle _ => nomatch hrow

theorem decodeWordRecord_ok {width : Nat} {tag : Byte} {mk : BitVec width → Instr} {rest : List Byte} {i : Instr}
    (h : decodeWordRecord tag mk rest = .ok i) : ∃ w, i = mk w := by
  unfold decodeWordRecord at h
  split at h
  · next w _ => exact ⟨w, (Except.ok.inj h).symm⟩
  · cases h

/-- A record is never a received byte. -/
theorem decodeRecord_ok {tag : Byte} {rest : List Byte} {i : Instr} (h : decodeRecord tag rest = .ok i) :
    i.isReceived = false := by
  unfold decodeRecord at h
  split_ifs at h
  iterate 5
    · obtain ⟨w, rfl⟩ := decodeWordRecord_ok h
      rfl
  · split at h <;> cases h
    rfl
  · split at h
    · split at h <;> cases h
      rfl
    · cases h
  · split at h <;> cases h
    rfl

/-- Settles O57. -/
theorem decodedInstructionsAreWellFormed : Obligations.DecodedInstructionsAreWellFormed := by
  intro bytes i h
  match bytes with
  | [] => cases h
  | [b] =>
    obtain rfl := Except.ok.inj h
    exact decodeByte_wf b
  | b0 :: b1 :: rest =>
    simp only [decode] at h
    split_ifs at h
    · obtain ⟨v, -, hop⟩ := decodeHostFrame_ok h
      exact wf_of_not_isReceived (decodeHostOp_ok hop).1
    · exact wf_of_not_isReceived (decodeRecord_ok h)

/-- Settles O58: the frame is that of a code and a value, and what it decodes to is the command that sends them. -/
theorem hostFrameIsWhatTheOperationSends : Obligations.HostFrameIsWhatTheOperationSends := by
  intro rest i s writes hne hdecode hon hlock hwhole
  obtain ⟨c, rest, rfl⟩ := List.exists_cons_of_ne_nil hne
  obtain ⟨v, hbytes, hop⟩ := decodeHostFrame_ok (show decodeHostFrame c rest = .ok i from hdecode)
  obtain ⟨-, setting, hexec⟩ := decodeHostOp_ok hop
  rw [hbytes] at hwhole ⊢
  exact (sendsFrame_of_callerCommand hexec s writes hon hlock).1 hwhole

/-- Settles O59: by evaluating the decoder on each word. -/
theorem tableWordsDecode : Obligations.TableWordsDecode := by
  unfold Obligations.TableWordsDecode
  decide

end Sys2Proof.Machine

namespace Sys2Proof.Machine

/-! Open and the receive loop with scripted answers of the environment (spec/42_session_commands.md section 2,
spec/43_receive_loop.md section 1, spec/70_reset_and_hazards.md section 1). -/

/-! ### Reset and the timeout -/

/-- Settles O1: by the values of `State.reset`. -/
theorem resetGivesTheRegisterValues : Obligations.ResetGivesTheRegisterValues := by
  unfold Obligations.ResetGivesTheRegisterValues
  decide

/-- Settles O2: the reset decoder is empty and idle, and the reset session is CLOSED with the lock free. -/
theorem invariantHoldsAtReset : Obligations.InvariantHoldsAtReset where
  dec := ⟨by decide, by decide, by decide, by decide, by decide⟩
  ses := ⟨by decide, by decide, by decide, by decide⟩

/-- Settles O24: the two branches of the timeout. -/
theorem timeoutResetsAStalledFrame : Obligations.TimeoutResetsAStalledFrame := by
  intro s now
  have hexec : exec (.idleTimeout now) s = .next { s with dec := s.dec.timeout now } := rfl
  rw [hexec, Dec.timeout, ← s.dec.timedOut_eq_true_iff now]
  refine ⟨fun hfires => ?_, fun hnot => ?_⟩
  · rw [if_pos hfires]; rfl
  · rw [if_neg hnot]

/-! ### A sequence of frames whose answers are scripted -/

theorem State.wrote_nil (s : State) : s.wrote [] s.env.writeAnswers = s := by simp [State.wrote]

/-- A frame accepted whole hands over to the rest of the sequence (R164). -/
theorem sendAll_cons_of_accepted {c v : Byte} {setting : Setting} {l : List (Byte × Byte × Setting)} {s : State}
    {rest : List WriteAnswer} (hlock : s.ses.txLock = false)
    (h : s.env.writeAnswers = .ok (kissEncode c [v]).length :: rest) :
    sendAll ((c, v, setting) :: l) s = sendAll l (s.wrote (kissEncode c [v]) rest) := by
  rw [sendAll, sendFrame_of_answer hlock h, writeError_eq_none.2 rfl, sentBytes, List.take_length]

/-- With every frame accepted whole, the frames are on the wire and nothing else has changed (R164). -/
theorem sendAll_of_accepted {l : List (Byte × Byte × Setting)} {s : State} {writes : List WriteAnswer}
    (hlock : s.ses.txLock = false) (h : s.env.writeAnswers = acceptAll l ++ writes) :
    sendAll l s = (none, s.wrote (frameBytes (l.map fun x => (x.1, x.2.1))) writes) := by
  induction l generalizing s with
  | nil =>
    obtain rfl : s.env.writeAnswers = writes := h
    exact congrArg _ s.wrote_nil.symm
  | cons x l ih =>
    rw [sendAll_cons_of_accepted (rest := acceptAll l ++ writes) hlock h, ih (s := s.wrote _ _) hlock rfl,
      State.wrote_wrote]
    rfl

/-- The first frame that raises ends the sequence: the frames before it are on the wire whole, of that one what the
transport took, and of the rest nothing (R166). -/
theorem sendAll_of_error {l : List (Byte × Byte × Setting)} {k : Nat} {s : State} {answer : WriteAnswer}
    {writes : List WriteAnswer} {c v : Byte} {setting : Setting} {e : SesError} (hlock : s.ses.txLock = false)
    (hk : l[k]? = some (c, v, setting)) (h : s.env.writeAnswers = acceptAll (l.take k) ++ answer :: writes)
    (he : writeError (kissEncode c [v]) setting answer = some e) :
    sendAll l s = (some e, s.wrote (frameBytes ((l.take k).map fun x => (x.1, x.2.1)) ++
      (kissEncode c [v]).take (sentBytes answer)) writes) := by
  induction l generalizing s k with
  | nil => simp at hk
  | cons x l ih =>
    cases k with
    | zero =>
      obtain rfl : x = (c, v, setting) := Option.some.inj hk
      rw [sendAll, sendFrame_of_answer hlock h, he]
      rfl
    | succ k =>
      rw [sendAll_cons_of_accepted (rest := acceptAll (l.take k) ++ answer :: writes) hlock h,
        ih (s := s.wrote _ _) hlock hk rfl, State.wrote_wrote, ← List.append_assoc]
      rfl

/-! ### Open -/

/-- Open's precondition as the registers it reads (R161). -/
theorem Ses.mayOpen_iff (x : Ses) :
    x.mayOpen = true ↔ x.online = false ∧ x.interfaceReady = false ∧ x.openCalled = false := by
  rw [x.mayOpen_eq_true_iff, x.fsm_eq_closed_iff, and_assoc]

/-- Settles O37. -/
theorem secondOpenIsRefused : Obligations.SecondOpenIsRefused := fun _ s hnot =>
  if_pos (Bool.eq_false_iff.2 fun hmay => hnot (s.ses.mayOpen_iff.1 hmay))

/-- What the call of `T.open` leaves of the state: the call is recorded and marked, its answer used up (R161, R162). -/
def State.called (cfg : SessionConfig) (opens : List OpenAnswer) (s : State) : State :=
  { s with
    ses := { s.ses with openCalled := true }
    env := { s.env with openAnswers := opens }
    out := { s.out with opens := s.out.opens ++ [serialArguments cfg] } }

theorem State.callOpen_of_answer {cfg : SessionConfig} {s : State} {answer : OpenAnswer} {opens : List OpenAnswer}
    (h : s.env.openAnswers = answer :: opens) : s.callOpen cfg = (answer, s.called cfg opens) := by
  simp [State.callOpen, State.drawOpen, State.called, h]

/-- Open where it may run and `T.open` fails (R162, R215). -/
theorem exec_openSession_of_fail {cfg : SessionConfig} {s : State} {opens : List OpenAnswer}
    (hmay : s.ses.mayOpen = true) (h : s.env.openAnswers = .fail :: opens) :
    exec (.openSession cfg) s = .next ((s.called cfg opens).takeError .openCall .transportOpenError) := by
  simp [exec, execOpenSession, hmay, State.callOpen_of_answer h]

/-- Open where it may run and `T.open` gives a handle (R163). -/
theorem exec_openSession_of_handle {cfg : SessionConfig} {s : State} {handle : Nat} {opens : List OpenAnswer}
    (hmay : s.ses.mayOpen = true) (hlock : s.ses.txLock = false) (h : s.env.openAnswers = .ok handle :: opens) :
    exec (.openSession cfg) s = .next (openWith cfg handle (s.called cfg opens)) := by
  have hfree : (s.called cfg opens).ses.txLock = false := hlock
  simp [exec, execOpenSession, hmay, State.callOpen_of_answer h, hfree]

/-- Settles O35. -/
theorem failedTransportOpenChangesNothing : Obligations.FailedTransportOpenChangesNothing := by
  intro cfg s opens hoff hready hnew hfail
  rw [exec_openSession_of_fail (s.ses.mayOpen_iff.2 ⟨hoff, hready, hnew⟩) hfail]
  rfl

/-- The state in which Open's sequence begins: handle and configuration written, the settle delay passed (R163). -/
def State.settled (cfg : SessionConfig) (handle : Nat) (s : State) : State :=
  State.pass Config.tSettleMs { s with ses := { s.ses with handle := some handle, config := some cfg } }

theorem openWith_of_none {cfg : SessionConfig} {handle : Nat} {s s2 : State}
    (h : sendAll (openSequence cfg) (s.settled cfg handle) = (none, s2)) : openWith cfg handle s = s2.startLoop := by
  rw [State.settled] at h
  simp [openWith, h]

theorem openWith_of_some {cfg : SessionConfig} {handle : Nat} {s s2 : State} {e : SesError}
    (h : sendAll (openSequence cfg) (s.settled cfg handle) = (some e, s2)) :
    openWith cfg handle s = s2.takeError .openSequence e := by
  rw [State.settled] at h
  simp [openWith, h]

/-- Settles O36: the settle delay changes the time alone, and the sequence ends at its first error. -/
theorem failedSequenceFaultsTheSession : Obligations.FailedSequenceFaultsTheSession := by
  intro cfg s handle k opens answer writes c v setting e hoff hready hnew hlock hopen hk hwrites herror
  have hsend := sendAll_of_error (s := (s.called cfg opens).settled cfg handle) hlock hk hwrites herror
  rw [exec_openSession_of_handle (s.ses.mayOpen_iff.2 ⟨hoff, hready, hnew⟩) hlock hopen, openWith_of_some hsend]
  exact ⟨rfl, rfl, (List.append_assoc _ _ _).symm, rfl, rfl, rfl, rfl⟩

/-- Time passing by a scripted amount (R197, R225). -/
theorem State.pass_of_elapsed {n gap : Nat} {s : State} {gaps : List Nat} (h : s.env.elapsed = gap :: gaps) :
    s.pass n = { s with env := { s.env with clock := s.env.clock + BitVec.ofNat Config.timeW (n + gap),
                                            elapsed := gaps } } := by
  simp [State.pass, h]

/-- `now()` with a scripted amount of time passing before it (R225). -/
theorem State.now_of_elapsed {gap : Nat} {s : State} {gaps : List Nat} (h : s.env.elapsed = gap :: gaps) :
    s.now = (s.env.clock + BitVec.ofNat Config.timeW gap,
      { s with env := { s.env with clock := s.env.clock + BitVec.ofNat Config.timeW gap, elapsed := gaps } }) := by
  simp [State.now, State.pass_of_elapsed h]

/-- The start of the loop with a scripted time (R165). -/
theorem State.startLoop_of_elapsed {s : State} {start : Nat} {later : List Nat} (h : s.env.elapsed = start :: later) :
    s.startLoop = { s with
      dec := s.dec.restart (s.env.clock + BitVec.ofNat Config.timeW start)
      ses := { s.ses with interfaceReady := true, online := true }
      env := { s.env with clock := s.env.clock + BitVec.ofNat Config.timeW start, elapsed := later }
      out := { s.out with result := .ok } } := by
  simp [State.startLoop, State.now_of_elapsed h]

/-- The bytes of Open's five frames, in the source's order (R164). -/
theorem frameBytes_openSequence (cfg : SessionConfig) :
    frameBytes ((openSequence cfg).map fun x => (x.1, x.2.1)) =
      kissEncode 0x01 [ticks cfg.preambleMs.toInt] ++ kissEncode 0x04 [ticks cfg.txtailMs.toInt] ++
      kissEncode 0x02 [raw cfg.persistence.toInt] ++ kissEncode 0x03 [ticks cfg.slottimeMs.toInt] ++
      kissEncode 0x0F [if cfg.flowControl then Config.flowOn else Config.flowOff] := by
  simp only [frameBytes, openSequence, List.map_cons, List.map_nil, List.flatMap_cons, List.flatMap_nil,
    List.append_nil, List.append_assoc]
  rfl

/-- Settles O34: `T.open`, the settle delay, the five frames, and the start of the loop. -/
theorem openStartsTheSession : Obligations.OpenStartsTheSession := by
  intro cfg s handle settle start opens writes later hoff hready hnew hlock hopen hwrites htime
  have hsettle : (s.called cfg opens).settled cfg handle = _ := State.pass_of_elapsed htime
  have hsend := sendAll_of_accepted (s := (s.called cfg opens).settled cfg handle) hlock hwrites
  rw [exec_openSession_of_handle (s.ses.mayOpen_iff.2 ⟨hoff, hready, hnew⟩) hlock hopen, openWith_of_none hsend,
    hsettle, State.startLoop_of_elapsed rfl, frameBytes_openSequence]
  rfl

/-! ### The turn and the loop -/

/-- The state after the turn was drawn. -/
def State.turned (turns : List Turn) (s : State) : State := { s with env := { s.env with turns := turns } }

@[simp] theorem State.turned_ses (turns : List Turn) (s : State) : (s.turned turns).ses = s.ses := rfl

theorem State.drawTurn_of_turns {s : State} {turn : Turn} {turns : List Turn} (h : s.env.turns = turn :: turns) :
    s.drawTurn = (turn, s.turned turns) := by
  simp [State.drawTurn, State.turned, h]

theorem step_of_loop {s : State} {turns : List Turn} (h : s.env.turns = .loop :: turns) :
    step s = loopTurn (s.turned turns) := by
  simp [step, takeTurn, State.drawTurn_of_turns h]

/-- Settles O42. -/
theorem offlineTurnDoesNothing : Obligations.OfflineTurnDoesNothing := by
  intro s turns hoff hturn
  have hidle : (s.turned turns).ses.online ≠ true := by simpa using hoff
  rw [step_of_loop hturn, loopTurn, if_neg hidle]
  refine ⟨fun hfault => if_neg ?_, fun hfault => if_pos hfault⟩
  simpa using hfault

/-- The turn of an online session's loop is an iteration (R190). -/
theorem step_of_online_loop {s : State} {turns : List Turn} (hon : s.ses.online = true)
    (h : s.env.turns = .loop :: turns) : step s = loopIteration (s.turned turns) := by
  rw [step_of_loop h]
  exact if_pos hon

/-- The turn of the caller runs the record's instruction, if it is an operation of the caller's (R228). -/
theorem step_of_call {s : State} {record : List Byte} {turns : List Turn} {i : Instr}
    (h : s.env.turns = .call record :: turns) (hdecode : decode record = .ok i) (hop : i.isCallerOp = true) :
    step s = exec i (s.turned turns) := by
  simp [step, takeTurn, State.drawTurn_of_turns h, callTurn, hdecode, hop]

end Sys2Proof.Machine

namespace Sys2Proof.Machine

/-! An iteration of the receive loop with scripted answers of the environment (spec/43_receive_loop.md section 1). -/

/-- The state after `T.avail` has answered: the arrivals have joined the queue, the answer is used up (R57, R191). -/
def State.queried (arrived : List Byte) (arrivals : List (List Byte)) (avails : List Answer) (s : State) : State :=
  { s with env := { s.env with rxQueue := s.env.rxQueue ++ arrived, arrivals := arrivals, availAnswers := avails } }

/-- Without arrivals the queue stays. -/
theorem State.queried_nil (arrivals : List (List Byte)) (avails : List Answer) (s : State) :
    s.queried [] arrivals avails = { s with env := { s.env with arrivals := arrivals, availAnswers := avails } } := by
  simp [State.queried]

section Iteration

variable {s : State} {arrived rest : List Byte} {arrivals : List (List Byte)} {avails reads : List Answer} {b : Byte}

theorem State.arrive_drawAvail_of_scripts {answer : Answer} (harrive : s.env.arrivals = arrived :: arrivals)
    (havail : s.env.availAnswers = answer :: avails) :
    s.arrive.drawAvail = (answer, s.queried arrived arrivals avails) := by
  simp [State.arrive, State.drawAvail, State.queried, harrive, havail]

/-- `T.avail` fails (R199). -/
theorem loopIteration_of_avail_fail (harrive : s.env.arrivals = arrived :: arrivals)
    (havail : s.env.availAnswers = .fail :: avails) :
    loopIteration s = .next ((s.queried arrived arrivals avails).takeError .loop .transportIOError) := by
  simp [loopIteration, State.arrive_drawAvail_of_scripts harrive havail]

/-- A byte waits (R191, R192). -/
theorem loopIteration_of_byte (harrive : s.env.arrivals = arrived :: arrivals)
    (havail : s.env.availAnswers = .ok :: avails) (hqueue : s.env.rxQueue ++ arrived = b :: rest) :
    loopIteration s = receiveIteration b rest (s.queried arrived arrivals avails) := by
  have hwaits : (s.queried arrived arrivals avails).env.rxQueue = b :: rest := hqueue
  simp [loopIteration, State.arrive_drawAvail_of_scripts harrive havail, hwaits]

/-- No byte waits (R191, R196). -/
theorem loopIteration_of_empty (harrive : s.env.arrivals = arrived :: arrivals)
    (havail : s.env.availAnswers = .ok :: avails) (hqueue : s.env.rxQueue ++ arrived = []) :
    loopIteration s = idleIteration (s.queried arrived arrivals avails) := by
  have hempty : (s.queried arrived arrivals avails).env.rxQueue = [] := hqueue
  simp [loopIteration, State.arrive_drawAvail_of_scripts harrive havail, hempty]

/-- `T.read1` fails: queue, timestamp and decoder stay (R199). -/
theorem receiveIteration_of_fail (hread : s.env.readAnswers = .fail :: reads) :
    receiveIteration b rest s = .next (State.takeError .loop .transportIOError
      { s with env := { s.env with readAnswers := reads } }) := by
  simp [receiveIteration, State.drawRead, hread]

/-- A byte is read: it leaves the queue, its time is stamped, and its row runs (R192, R193). -/
theorem receiveIteration_of_ok {gap : Nat} {gaps : List Nat} (hread : s.env.readAnswers = .ok :: reads)
    (htime : s.env.elapsed = gap :: gaps) :
    receiveIteration b rest s = exec (decodeByte b) { s with
      dec := { s.dec with lastByteTimestamp := s.env.clock + BitVec.ofNat Config.timeW gap }
      env := { s.env with rxQueue := rest, readAnswers := reads, elapsed := gaps,
                          clock := s.env.clock + BitVec.ofNat Config.timeW gap } } := by
  simp [receiveIteration, State.drawRead, State.fetched, State.now, State.pass, hread, htime]

/-- An idle iteration with the lock free: the timeout with `now()`, the wait, the poll (R196 to R198). -/
theorem idleIteration_of_lock_free (hlock : s.ses.txLock = false) :
    idleIteration s = .next (finishPoll (sendFrame Config.cmdAudioPeak Config.pollArg .peak
      (State.pass Config.tPollMs { s.now.2 with dec := s.dec.timeout s.now.1 }))) :=
  if_neg (by simp [hlock])

end Iteration

/-- The poll's frame (R198). -/
theorem kissEncode_poll : kissEncode Config.cmdAudioPeak [Config.pollArg] = [0xC0, 0x12, 0x01, 0xC0] := rfl

/-! ### Whole turns -/

/-- Settles O38: on the loop's turn the byte at the head of the queue, on the caller's the record's instruction. -/
theorem stepRunsTheDecodedInstruction : Obligations.StepRunsTheDecodedInstruction := by
  refine ⟨fun s b rest arrived turns arrivals avails reads gap gaps hon hturn harrive havail hread htime hqueue =>
    ⟨decode_singleton b, ?_⟩, fun s record turns i hturn hdecode hop => step_of_call hturn hdecode hop⟩
  rw [step_of_online_loop hon hturn, loopIteration_of_byte (s := s.turned turns) harrive havail hqueue,
    receiveIteration_of_ok (s := (s.turned turns).queried arrived arrivals avails) hread htime]
  rfl

/-- Settles O39: the timeout at `now()`, the wait, and the poll frame accepted whole. -/
theorem idleIterationPolls : Obligations.IdleIterationPolls := by
  intro s turns arrivals avails gap wait gaps writes hon hlock hturn harrive hqueue havail htime hwrites
  have hempty : s.env.rxQueue ++ [] = [] := by rw [hqueue, List.append_nil]
  rw [step_of_online_loop hon hturn, loopIteration_of_empty (s := s.turned turns) harrive havail hempty,
    idleIteration_of_lock_free (s := (s.turned turns).queried [] arrivals avails) hlock,
    State.now_of_elapsed (s := (s.turned turns).queried [] arrivals avails) htime, State.pass_of_elapsed rfl,
    sendFrame_of_answer (answer := .ok 4) (rest := writes), State.queried_nil]
  exacts [rfl, hlock, hwrites]

/-- Settles O40: the three places in an iteration where the transport can fail. -/
theorem loopErrorsEndTheSession : Obligations.LoopErrorsEndTheSession := by
  refine fun s turns arrived arrivals avails hon hturn harrive => ⟨fun havail => ?avail,
    fun reads havail hwaits hread => ?read, fun answer writes e havail hempty hlock hwrites herror => ?poll⟩
  all_goals rw [step_of_online_loop hon hturn]
  case avail =>
    rw [loopIteration_of_avail_fail (s := s.turned turns) harrive havail]
    rfl
  case read =>
    obtain ⟨b, rest, hqueue⟩ := List.exists_cons_of_ne_nil hwaits
    rw [loopIteration_of_byte (s := s.turned turns) harrive havail hqueue,
      receiveIteration_of_fail (s := (s.turned turns).queried arrived arrivals avails) hread]
    rfl
  case poll =>
    rw [loopIteration_of_empty (s := s.turned turns) harrive havail hempty,
      idleIteration_of_lock_free (s := (s.turned turns).queried arrived arrivals avails) hlock,
      sendFrame_of_answer (answer := answer) (rest := writes), kissEncode_poll, herror]
    exacts [⟨rfl, rfl, _, rfl⟩, hlock, hwrites]

end Sys2Proof.Machine

namespace Sys2Proof.Machine

/-! What a step does to the streams and to the session's state (spec/20_memory.md sections 4, 5 and 7,
spec/43_receive_loop.md sections 2 and 3, spec/70_reset_and_hazards.md section 3), and what the caller's operations leave
alone. -/

/-! ### Open -/

/-- Open leaves the queue and the callbacks, and puts a beginning of its five frames on the wire, all of them if the
session becomes online (R164 to R166). -/
theorem execOpenSession_next_streams {cfg : SessionConfig} {s t : State} (h : execOpenSession cfg s = .next t) :
    t.env.rxQueue = s.env.rxQueue ∧ t.out.callbacks = s.out.callbacks ∧
    ∃ sent, t.out.wire = s.out.wire ++ sent ∧ sent <+: frameBytes ((openSequence cfg).map fun x => (x.1, x.2.1)) ∧
      (t.ses.online = true → sent = frameBytes ((openSequence cfg).map fun x => (x.1, x.2.1))) := by
  obtain ⟨hmay, ⟨-, rfl⟩ | ⟨handle, -, -, rfl⟩⟩ := execOpenSession_next h
  · obtain ⟨hoff, -, -⟩ := s.ses.mayOpen_iff.1 hmay
    exact ⟨rfl, rfl, [], by simp, List.nil_prefix, by simp [hoff]⟩
  have hframe := sendAll_frame (openSequence cfg) ((s.callOpen cfg).2.settled cfg handle)
  have hwire := sendAll_wire (openSequence cfg) ((s.callOpen cfg).2.settled cfg handle)
  obtain ⟨s2, hsend, hopen⟩ | ⟨e, s2, hsend, hopen⟩ := openWith_cases cfg handle (s.callOpen cfg).2
  all_goals
    rw [State.settled, hsend] at hframe hwire
    obtain ⟨-, hqueue, -, -, hcalls, -, hses, -⟩ := hframe
    obtain ⟨sent, hsent, hprefix, hwhole⟩ := hwire
    rw [hopen]
  · exact ⟨hqueue, hcalls, sent, hsent, hprefix, fun _ => hwhole rfl⟩
  · refine ⟨by simpa using hqueue, by simpa using hcalls, sent, by simpa using hsent, hprefix, fun hon => ?_⟩
    obtain ⟨hoff, -, -⟩ := s.ses.mayOpen_iff.1 hmay
    have hsame : s2.ses.online = s.ses.online := (congrArg Ses.online hses :)
    simp [hsame, hoff] at hon

/-- Settles O54: the registers at Open's three ends and what it does to the streams. -/
theorem openFrame : Obligations.OpenFrame := by
  intro cfg s t h
  obtain ⟨hqueue, hcalls, sent, hwire, -, -⟩ := execOpenSession_next_streams h
  have hprefix : s.out.wire <+: t.out.wire := ⟨sent, hwire.symm⟩
  obtain ⟨hdec, hses⟩ | ⟨handle, e, -, -, hdec, hses⟩ | ⟨handle, time, -, hdec, -, hses⟩ :=
    execOpenSession_next_registers h
  · exact ⟨fun a => by rw [hdec], fun _ => hdec, fun hlock => by rw [hses]; exact hlock, hqueue, hcalls, hprefix⟩
  · exact ⟨fun a => by rw [hdec], fun _ => hdec, fun hlock => by rw [hses]; exact hlock, hqueue, hcalls, hprefix⟩
  · exact ⟨fun a => by rw [hdec]; rfl, fun hoff => by simp [hses] at hoff, fun hlock => by rw [hses]; exact hlock,
      hqueue, hcalls, hprefix⟩

/-! ### An iteration of the loop -/

/-- At most the oldest byte of the queue, arrivals joined, is taken (R57, R58, R192). -/
theorem loopIteration_next_queue {s t : State} (h : loopIteration s = .next t) :
    ∃ taken, s.arrive.env.rxQueue = taken ++ t.env.rxQueue ∧ taken.length ≤ 1 := by
  obtain ⟨-, rfl⟩ | ⟨-, b, rest, hqueue, ⟨-, rfl⟩ | ⟨-, hbyte⟩⟩ | ⟨-, hqueue, hidle⟩ := loopIteration_next h
  · exact ⟨[], by simp, by simp⟩
  · exact ⟨[], by simp, by simp⟩
  · obtain ⟨-, hrest, -⟩ := fireRx_next (receiveByte_next hbyte).2
    exact ⟨[b], by rw [hqueue, hrest]; rfl, by simp⟩
  · obtain ⟨-, rfl⟩ := idleIteration_next hidle
    exact ⟨[], by simp, by simp⟩

/-- An iteration makes at most one callback, that of the frame a received byte emits (R122). -/
theorem loopIteration_next_callbacks {s t : State} (h : loopIteration s = .next t) :
    ∃ made, t.out.callbacks = s.out.callbacks ++ made ∧ made.length ≤ 1 := by
  obtain ⟨-, rfl⟩ | ⟨-, b, rest, -, ⟨-, rfl⟩ | ⟨-, hbyte⟩⟩ | ⟨-, -, hidle⟩ := loopIteration_next h
  · exact ⟨[], by simp, by simp⟩
  · exact ⟨[], by simp, by simp⟩
  · obtain ⟨-, -, -, hout, -⟩ := fireRx_next (receiveByte_next hbyte).2
    exact ⟨_, by rw [hout]; rfl, emitted_callbacks_length_le _⟩
  · obtain ⟨-, rfl⟩ := idleIteration_next hidle
    exact ⟨[], by simp, by simp⟩

/-- An iteration writes a beginning of the poll's frame, and nothing while a byte waits (R198, R202). -/
theorem loopIteration_next_wire {s t : State} (h : loopIteration s = .next t) :
    ∃ sent, t.out.wire = s.out.wire ++ sent ∧ sent <+: kissEncode Config.cmdAudioPeak [Config.pollArg] ∧
      (s.arrive.env.rxQueue ≠ [] → sent = []) := by
  obtain ⟨-, rfl⟩ | ⟨-, b, rest, -, ⟨-, rfl⟩ | ⟨-, hbyte⟩⟩ | ⟨-, hqueue, hidle⟩ := loopIteration_next h
  · exact ⟨[], by simp, List.nil_prefix, fun _ => rfl⟩
  · exact ⟨[], by simp, List.nil_prefix, fun _ => rfl⟩
  · obtain ⟨-, -, -, hout, -⟩ := fireRx_next (receiveByte_next hbyte).2
    exact ⟨[], by rw [hout]; simp, List.nil_prefix, fun _ => rfl⟩
  · obtain ⟨-, rfl⟩ := idleIteration_next hidle
    exact ⟨_, by rw [finishPoll_out, sendFrame_out_wire]; rfl, List.take_prefix _ _, fun hwaits => absurd hqueue hwaits⟩

/-! ### The streams over a step -/

theorem frameBytes_singleton (c v : Byte) : frameBytes [(c, v)] = kissEncode c [v] := by simp [frameBytes]

/-- Open's five commands are among those a session sends (R179). -/
theorem openSequence_mem_sessionCommands (cfg : SessionConfig) :
    ∀ f ∈ (openSequence cfg).map fun x => (x.1, x.2.1), f.1 ∈ sessionCommands := by
  simp [openSequence, sessionCommands]

/-- A call of the caller's leaves the queue and makes no callback. -/
theorem exec_callerOp_next_streams {i : Instr} {s t : State} (hop : i.isCallerOp = true) (h : exec i s = .next t) :
    t.env.rxQueue = s.env.rxQueue ∧ t.out.callbacks = s.out.callbacks := by
  obtain ⟨c, v, setting, -, -, -, rfl⟩ | ⟨cfg, -, hopen⟩ | ⟨frame, rfl⟩ := exec_callerOp_cases hop h
  · simp
  · obtain ⟨hqueue, hcalls, -⟩ := execOpenSession_next_streams hopen
    exact ⟨hqueue, hcalls⟩
  · exact ⟨rfl, rfl⟩

/-- Settles O46: the poll's frame, a command's, Open's five, or none. -/
theorem wireCarriesSessionFramesInOrder : Obligations.WireCarriesSessionFramesInOrder := by
  intro s t h
  obtain ⟨-, -, hloop⟩ | ⟨-, -, -, rfl⟩ | ⟨record, i, -, -, hop, hexec⟩ := step_next h
  · obtain ⟨sent, hwire, hprefix, -⟩ := loopIteration_next_wire hloop
    rw [← frameBytes_singleton] at hprefix
    exact ⟨_, sent, hwire, hprefix, List.forall_mem_singleton.2 (by decide)⟩
  · exact ⟨[], [], by simp, List.nil_prefix, by simp⟩
  obtain ⟨c, v, setting, hc, -, -, rfl⟩ | ⟨cfg, -, hopen⟩ | ⟨frame, rfl⟩ := exec_callerOp_cases hop hexec
  · refine ⟨[(c, v)], _, by rw [finishCommand_out_wire, sendFrame_out_wire]; rfl, ?_, List.forall_mem_singleton.2 hc⟩
    rw [frameBytes_singleton]
    exact List.take_prefix _ _
  · obtain ⟨-, -, sent, hwire, hprefix, -⟩ := execOpenSession_next_streams hopen
    exact ⟨_, sent, hwire, hprefix, openSequence_mem_sessionCommands cfg⟩
  · exact ⟨[], [], by simp, List.nil_prefix, by simp⟩

/-- Settles O47: an iteration takes at most the oldest byte after the arrivals joined; every other turn leaves the
queue. -/
theorem receiveQueueIsFifo : Obligations.ReceiveQueueIsFifo := by
  intro s t h
  obtain ⟨hturn, hon, hloop⟩ | ⟨hturn, hoff, -, rfl⟩ | ⟨record, i, hturn, -, hop, hexec⟩ := step_next h
  · exact ⟨fun _ _ => loopIteration_next_queue hloop, by simp [hturn, hon]⟩
  · exact ⟨by simp [hoff], fun _ => rfl⟩
  · exact ⟨by simp [hturn], fun _ => (exec_callerOp_next_streams hop hexec).1⟩

/-- Settles O48. -/
theorem callbacksComeOneAtATime : Obligations.CallbacksComeOneAtATime := by
  intro s t h
  obtain ⟨hturn, -, hloop⟩ | ⟨-, -, -, rfl⟩ | ⟨record, i, -, -, hop, hexec⟩ := step_next h
  · exact ⟨loopIteration_next_callbacks (s := s.drawTurn.2) hloop, fun hnot => absurd hturn hnot⟩
  · exact ⟨⟨[], by simp, by simp⟩, fun _ => rfl⟩
  · have hcalls := (exec_callerOp_next_streams hop hexec).2
    exact ⟨⟨[], by simp [hcalls], by simp⟩, fun _ => hcalls⟩

/-- Settles O49: only an idle iteration writes, and with a byte waiting there is none. -/
theorem noPollWhileBytesWait : Obligations.NoPollWhileBytesWait := by
  intro s t hturn hwaits h
  obtain ⟨-, -, hloop⟩ | ⟨-, -, -, rfl⟩ | ⟨record, i, hcall, -⟩ := step_next h
  · obtain ⟨sent, hwire, -, hnone⟩ := loopIteration_next_wire hloop
    rw [hwire, hnone hwaits, List.append_nil]
    rfl
  · rfl
  · simp [hturn] at hcall

/-! ### The session's state over a step -/

theorem Ses.fsm_eq_ready_iff (x : Ses) : x.fsm = some .ready ↔ x.online = true ∧ x.interfaceReady = true := by
  unfold Ses.fsm
  cases x.online <;> cases x.interfaceReady <;> simp

/-- Under the invariant the session is in one of its three states (R35). -/
theorem Ses.Inv.fsm_cases {x : Ses} (h : x.Inv) :
    x.fsm = some .closed ∨ x.fsm = some .ready ∨ x.fsm = some .offline := by
  rw [x.fsm_eq_closed_iff, x.fsm_eq_ready_iff, x.fsm_eq_offline_iff]
  have hready := h.readyWhenOnline
  cases hon : x.online <;> cases hr : x.interfaceReady <;> simp_all

/-- The rows of R204's table, and the turn on which each may happen. -/
def TableRow (s t : State) : Prop :=
  (s.ses.fsm = some .closed ∧ t.ses.fsm = some .closed) ∨
  (s.ses.fsm = some .closed ∧ t.ses.fsm = some .ready ∧ t.out.result = .ok ∧
    ∃ record cfg, s.drawTurn.1 = .call record ∧ decode record = .ok (.openSession cfg)) ∨
  (s.ses.fsm = some .ready ∧ t.ses.fsm = some .ready) ∨
  (s.ses.fsm = some .ready ∧ t.ses.fsm = some .offline ∧ s.drawTurn.1 = .loop) ∨
  (s.ses.fsm = some .offline ∧ t.ses.fsm = some .offline)

/-- A step that leaves the session's state is in the table, whichever state it is. -/
theorem TableRow.of_same {s t : State} (hs : s.Inv) (h : t.ses.fsm = s.ses.fsm) : TableRow s t := by
  obtain hclosed | hready | hoffline := hs.ses.fsm_cases
  · exact .inl ⟨hclosed, h.trans hclosed⟩
  · exact .inr (.inr (.inl ⟨hready, h.trans hready⟩))
  · exact .inr (.inr (.inr (.inr ⟨hoffline, h.trans hoffline⟩)))

/-- Settles O44: an iteration leaves the session READY or takes it OFFLINE, the third end of Open takes it from CLOSED to
READY, and everything else leaves both flags. -/
theorem sessionTransitionsAreTheTable : Obligations.SessionTransitionsAreTheTable := by
  intro s t hs h
  change TableRow s t
  obtain ⟨hturn, hon, hloop⟩ | ⟨-, -, -, rfl⟩ | ⟨record, i, hturn, hdecode, hop, hexec⟩ := step_next h
  · obtain hses | ⟨e, hses⟩ := loopIteration_next_ses (s := s.drawTurn.2) hs.ses.lockFree hloop
    · exact .of_same hs (congrArg Ses.fsm hses)
    · have hready := hs.ses.readyWhenOnline hon
      refine .inr (.inr (.inr (.inl ⟨s.ses.fsm_eq_ready_iff.2 ⟨hon, hready⟩, ?_, hturn⟩)))
      rw [Ses.fsm_eq_offline_iff, hses]
      exact ⟨rfl, hready⟩
  · exact .of_same hs rfl
  obtain ⟨c, v, setting, -, -, hlock, rfl⟩ | ⟨cfg, rfl, hopen⟩ | ⟨frame, rfl⟩ := exec_callerOp_cases hop hexec
  · obtain ⟨e, hses⟩ := finishCommand_sendFrame_ses (c := c) (v := v) (setting := setting) hlock
    exact .of_same hs (by rw [hses]; rfl)
  · obtain ⟨-, hses⟩ | ⟨handle, e, -, -, -, hses⟩ | ⟨handle, time, -, -, hresult, hses⟩ :=
      execOpenSession_next_registers hopen
    · exact .of_same hs (by rw [hses]; rfl)
    · exact .of_same hs (by rw [hses]; rfl)
    · refine .inr (.inl ⟨(Ses.mayOpen_eq_true_iff _ |>.1 (execOpenSession_next hopen).1).1, ?_, hresult, record, cfg,
        hturn, hdecode⟩)
      rw [Ses.fsm_eq_ready_iff, hses]
      exact ⟨rfl, rfl⟩
  · exact .of_same hs rfl

/-- Settles O45: of the caller's operations Open alone starts a decoder, and where it does the session becomes online. -/
theorem callerLeavesTheDecoderAlone : Obligations.CallerLeavesTheDecoderAlone := by
  intro s t record hturn h
  obtain ⟨hloop, -⟩ | ⟨hloop, -⟩ | ⟨record', i, -, -, hop, hexec⟩ := step_next h
  · simp [hturn] at hloop
  · simp [hturn] at hloop
  obtain ⟨c, v, setting, -, -, -, rfl⟩ | ⟨cfg, -, hopen⟩ | ⟨frame, rfl⟩ := exec_callerOp_cases hop hexec
  · exact .inl (by simp)
  · obtain ⟨hdec, -⟩ | ⟨handle, e, -, -, hdec, -⟩ | ⟨handle, time, -, -, -, hses⟩ := execOpenSession_next_registers hopen
    · exact .inl hdec
    · exact .inl hdec
    · obtain ⟨hoff, -, -⟩ := Ses.mayOpen_iff _ |>.1 (execOpenSession_next hopen).1
      exact .inr ⟨hoff, by rw [hses]⟩
  · exact .inl rfl

/-- Settles O50: of everything a step can do, the third end of Open alone raises `online`, and there all five frames are
on the wire. -/
theorem onlineOnlyAfterAFullOpen : Obligations.OnlineOnlyAfterAFullOpen := by
  intro s t h hoff hon
  obtain ⟨-, hloop, -⟩ | ⟨-, -, -, rfl⟩ | ⟨record, i, -, -, hop, hexec⟩ := step_next h
  · simp [hoff] at hloop
  · simp [hoff] at hon
  obtain ⟨c, v, setting, -, hon', -, -⟩ | ⟨cfg, -, hopen⟩ | ⟨frame, rfl⟩ := exec_callerOp_cases hop hexec
  · simp [hoff] at hon'
  · obtain ⟨-, -, sent, hwire, -, hwhole⟩ := execOpenSession_next_streams hopen
    refine ⟨cfg, ?_, by rw [hwire, hwhole hon]; rfl⟩
    obtain ⟨-, hses⟩ | ⟨handle, e, -, -, -, hses⟩ | ⟨handle, time, -, -, -, hses⟩ :=
      execOpenSession_next_registers hopen
    · simp [hses, hoff] at hon
    · simp [hses]
    · simp [hses]
  · simp [hoff] at hon

/-! ### The caller's operations and the timeout -/

theorem execSendCommand_next {c v : Byte} {setting : Setting} {s t : State}
    (h : execSendCommand c v setting s = .next t) :
    s.ses.txLock = false ∧ t = finishCommand (sendFrame c v setting s) := by
  unfold execSendCommand at h
  split at h
  · cases h
  · next hlock => exact ⟨by simpa using hlock, (Host.Outcome.next.inj h).symm⟩

/-- The timeout writes no byte of memory and not the timestamp (R140). -/
theorem Dec.timeout_frame (d : Dec) (now : Time) :
    (d.timeout now).buf = d.buf ∧ (d.timeout now).lastByteTimestamp = d.lastByteTimestamp := by
  unfold Dec.timeout
  split <;> simp

/-- One frame sent for the caller: the error that may be latched, and bytes of the frame on the wire (R175, R176). -/
theorem finishCommand_sendFrame_frame {c v : Byte} {setting : Setting} {s t : State} (hlock : s.ses.txLock = false)
    (ht : t = finishCommand (sendFrame c v setting s)) :
    t.dec = s.dec ∧ (∃ e, t.ses = { s.ses with error := e }) ∧ t.env.rxQueue = s.env.rxQueue ∧
    t.env.clock = s.env.clock ∧ t.out.opens = s.out.opens ∧ t.out.callbacks = s.out.callbacks ∧
    s.out.wire <+: t.out.wire := by
  subst ht
  refine ⟨by simp, finishCommand_sendFrame_ses hlock, by simp, by simp, by simp, by simp, ?_⟩
  rw [finishCommand_out_wire, sendFrame_out_wire]
  exact List.prefix_append _ _

/-- Settles O53: IDLE.TIMEOUT writes the decoder alone, `Encode` the result alone, and every other row here is one
frame sent. -/
theorem commandsFrame : Obligations.CommandsFrame := by
  intro i s hrow hnotOpen t h
  cases i with
  | idleTimeout now =>
    obtain rfl := Host.Outcome.next.inj h
    obtain ⟨hbuf, htime⟩ := s.dec.timeout_frame now
    exact ⟨by simp [Instr.isCallerOp], ⟨_, rfl⟩, fun _ _ => ⟨rfl, rfl, htime, fun a => by rw [hbuf]⟩, nofun, rfl, rfl,
      rfl, rfl, List.prefix_rfl⟩
  | encodeFrame c payload =>
    obtain rfl := Host.Outcome.next.inj h
    exact ⟨fun _ => rfl, ⟨_, rfl⟩, nofun, fun _ _ _ => ⟨rfl, rfl⟩, rfl, rfl, rfl, rfl, List.prefix_rfl⟩
  | setPreamble _ | setTxTail _ | setPersistence _ | setSlotTime _ | setFlowControl _ | enableDiagnostics
  | disableDiagnostics | askForPeak =>
    obtain ⟨-, hlock, ht⟩ := callerCommand_next h
    obtain ⟨hdec, hses, hrest⟩ := finishCommand_sendFrame_frame hlock ht
    exact ⟨fun _ => hdec, hses, nofun, nofun, hrest⟩
  | sendCommand c v setting =>
    obtain ⟨hlock, ht⟩ := execSendCommand_next h
    obtain ⟨hdec, hses, hrest⟩ := finishCommand_sendFrame_frame hlock ht
    exact ⟨fun _ => hdec, hses, nofun, nofun, hrest⟩
  | openSession cfg => exact absurd rfl (hnotOpen cfg)
  | _ => nomatch hrow

end Sys2Proof.Machine
